-- ==== Sys2Proof/Word.lean ====
section
/-! DEFINITION. The word type of the OOKTX core and its plainest arithmetic (spec 00_scope.md R8, R10, R11). -/

namespace Sys2Proof

/-- The word width `W` in bits (R8). -/
abbrev W : Nat := 32

/-- A word: an unsigned integer below `2^W` (R10), one value with no byte view (R72). -/
abbrev Word := BitVec 32

/-- `ceil(a / b)` as R11 gives it: `floor((a + b - 1) / b)`. -/
def ceilDiv (a b : Nat) : Nat := (a + b - 1) / b

end Sys2Proof
end

