-- ==== Sys2Proof/Config.lean ====
section
/-! DEFINITION. What one implementation fixes (spec 00_scope.md R8, R9; 10_state.md R48): the configuration record,
the values the spec decides, and the OPEN parameters as opaque constants that no proof can evaluate. -/

namespace Sys2Proof

/-- What the line does at a starved tick (R9, R158; 92_eei_decisions.md D3). -/
inductive StarvePolicy where
  /-- The line keeps the level of the last emitted bit: the value the spec takes. -/
  | holdLast
  /-- The line goes low: the alternative the spec names. -/
  | idleLow
deriving DecidableEq, Repr, Inhabited

/-- The two execution contexts (R7, R249): the free-running sequencer and the burst controller. -/
inductive Agent where
  | seq
  | ctl
deriving DecidableEq, Repr, Inhabited

/-- A duration in seconds, `num / den` (R8, R9). -/
structure Duration where
  num : Nat
  den : Nat
deriving DecidableEq, Repr, Inhabited

/-- `ceil(duration × f)`: the ticks that a lower bound in seconds is at the rate `f` (R9, R45). -/
def Duration.ticks (d : Duration) (f : Nat) : Nat := ceilDiv (d.num * f) d.den

/-- The configuration record: the parameters of R8 and R9 under their names, and the configuration items of R48. It is
written before the first step and no operation changes it (R265). -/
structure Config where
  /-- `W`. A word of the model has `Sys2Proof.W` bits (R14, R72), and a legal configuration says so. -/
  wordWidth : Nat
  /-- `N`, the length of the domain bit sequence. -/
  signalLength : Nat
  /-- CR5 `L`, the length of the word stream. -/
  streamLength : Nat
  /-- `T_SYM`, the symbol period. -/
  tSym : Duration
  /-- `FLUSH_WORDS`, the zero words that end a burst: one, and R204's one transition enqueues it. -/
  flushWords : Nat
  /-- `COOLDOWN`. -/
  cooldown : Duration
  /-- `FEEDBACK_DELAY` (D16). -/
  feedbackDelay : Duration
  /-- CR0 `FREQ_HZ`: what BOOT gives `START` as the symbol rate. -/
  freqHz : BitVec 32
  /-- CR1 `OUT_PIN`: what BOOT gives `START` as the pin. -/
  outPin : Nat
  /-- CR2 `REPEAT`: passes per burst, 1 to 65535. -/
  repeatCount : Nat
  /-- CR3 `COOLDOWN_TICKS`. -/
  cooldownTicks : Nat
  /-- CR4 `FEEDBACK_TICKS`. -/
  feedbackTicks : Nat
  /-- `FIFO_DEPTH`, at least 1 (R35, D2). -/
  fifoDepth : Nat
  /-- `PIN_COUNT` (D9). -/
  pinCount : Nat
  /-- The pins with `pin_available(p)` (D9). -/
  pinsAvailable : List Nat
  /-- `F_SYS`, the clock that the divider divides (D8). -/
  fSys : Nat
  /-- `DIV_MAX`, the divider's largest divisor (D8). -/
  divMax : Nat
  /-- `STARVE_POLICY` (D3). -/
  starvePolicy : StarvePolicy
deriving DecidableEq, Repr

/-- `IDLE_LEVEL = 0` (R9, D4), as a bit. -/
def Config.idleBit : Bool := false

/-- `realizable(f)` (R150, D8): an integer divisor between 1 and `DIV_MAX` gives the rate exactly. -/
def Config.realizable (c : Config) (f : Nat) : Bool :=
  decide (1 ≤ f) && decide (c.fSys % f = 0) && decide (1 ≤ c.fSys / f) && decide (c.fSys / f ≤ c.divMax)

/-- The pin is in range and available: the negation of `PinInvalid`'s condition (R232, D9). -/
def Config.pinOk (c : Config) (p : Nat) : Bool :=
  decide (p < c.pinCount) && c.pinsAvailable.contains p

/-- What R8 and R9 say of the parameters together: `W` and `FLUSH_WORDS` are what they are in every rule (R14, R204),
`L = ceil(N / W)`, `T_SYM = 1 / FREQ_HZ`, and the two waits in ticks are the durations' ceilings. -/
abbrev Config.Consistent (c : Config) : Prop :=
  c.wordWidth = W ∧ c.flushWords = 1 ∧ c.streamLength = ceilDiv c.signalLength c.wordWidth ∧
    c.tSym = ⟨1, c.freqHz.toNat⟩ ∧ (1 ≤ c.cooldown.den ∧ c.cooldownTicks = c.cooldown.ticks c.freqHz.toNat) ∧
    (1 ≤ c.feedbackDelay.den ∧ c.feedbackTicks = c.feedbackDelay.ticks c.freqHz.toNat)

/-- The legal values of the configuration items (R48, R35; `realizable` of the hardware's own rate: D8). -/
abbrev Config.Valid (c : Config) : Prop :=
  (1 ≤ c.repeatCount ∧ c.repeatCount ≤ 65535) ∧ c.cooldownTicks < 2 ^ 32 ∧ c.feedbackTicks < 2 ^ 32 ∧
    1 ≤ c.fifoDepth ∧ c.realizable c.freqHz.toNat = true ∧ c.Consistent

/-! ### The open parameters of R9: no body, so nothing can be proved of their values -/

/-- Bit `i` of the domain signal `SIGNAL`, whose content is not in the source (D21). -/
opaque Config.openSignalBit : Nat → Bool
/-- `OUT_PIN` (D9). -/
opaque Config.openOutPin : Nat
/-- `FIFO_DEPTH - 1`: the source says only that the FIFO can be full (D2). -/
opaque Config.openFifoDepthPred : Nat
/-- `PIN_COUNT` (D9). -/
opaque Config.openPinCount : Nat
/-- `pin_available(p)` (D9). -/
opaque Config.openPinAvailable : Nat → Bool
/-- The divisor that gives 2500 Hz, less 1: D8 leaves `F_SYS` open but constrains it by `realizable(2500)`. -/
opaque Config.openDivisorPred : Nat
/-- `DIV_MAX` less that divisor (D8). -/
opaque Config.openDivisorSlack : Nat
/-- Numerator and denominator (less 1) of `FEEDBACK_DELAY` (D16), but for its bound (R48). -/
opaque Config.openFeedbackNum : Nat
@[inherit_doc Config.openFeedbackNum] opaque Config.openFeedbackDenPred : Nat
/-- How many turns the other agents get before the ticks of round `k` (less 1, but in round 0). -/
opaque Config.openCtlTurns : Nat → Nat
/-- How many ticks round `k` has, less 1. -/
opaque Config.openSeqTurns : Nat → Nat
/-- Numerator and denominator (less 1) that place `TICK_PHASE` inside one symbol period (D7, U12). -/
opaque Config.openPhaseNum : Nat
@[inherit_doc Config.openPhaseNum] opaque Config.openPhaseDenPred : Nat

/-! ### The open interleaving -/

/-- Where a free-running run stands in its interleaving: the round, the turns of the other agents left in it, and the
ticks left after the next one. -/
structure Turn where
  round : Nat
  ctlLeft : Nat
  seqLeft : Nat
deriving DecidableEq, Repr

/-- Whose turn it is: the other agents' turns of a round come first, then its ticks. -/
def Turn.agent (t : Turn) : Agent :=
  match t.ctlLeft with
  | 0 => .seq
  | _ + 1 => .ctl

/-- The turn after this one. -/
def Turn.next (ctlTurns seqTurns : Nat → Nat) (t : Turn) : Turn :=
  match t.ctlLeft, t.seqLeft with
  | c + 1, q => ⟨t.round, c, q⟩
  | 0, q + 1 => ⟨t.round, 0, q⟩
  | 0, 0 => ⟨t.round + 1, ctlTurns (t.round + 1) + 1, seqTurns (t.round + 1)⟩

/-- The `n`-th turn of the interleaving with these run lengths. -/
def turnAt (ctlTurns seqTurns : Nat → Nat) : Nat → Turn
  | 0 => ⟨0, ctlTurns 0, seqTurns 0⟩
  | n + 1 => (turnAt ctlTurns seqTurns n).next ctlTurns seqTurns

/-- Which context takes the `n`-th free-running step. Any interleaving is admitted (R7, D17) in which both get infinitely
many turns: ticks never end (R150), only finitely many other steps are taken between two ticks (R13), and the controller's
pace is weakly fair (R249, D29). The interleavings of this form are exactly those, and nothing is known of which it is. -/
def Config.openSchedule (n : Nat) : Agent := (turnAt Config.openCtlTurns Config.openSeqTurns n).agent

/-! ### The hardware -/

/-- `FREQ_HZ` of the hardware. -/
def Config.hwFreqHz : BitVec 32 := 2500#32

/-- `N` of the hardware. -/
def Config.hwSignalLength : Nat := 333

/-- `COOLDOWN` of the hardware: 3 s. -/
def Config.hwCooldown : Duration := ⟨3, 1⟩

/-- `FEEDBACK_DELAY` of the hardware: any duration whose ticks fit CR4's 32 bits (R48). -/
def Config.hwFeedbackDelay : Duration where
  num := Config.openFeedbackNum %
    ((2 ^ 32 - 1) * (Config.openFeedbackDenPred + 1) / Config.hwFreqHz.toNat + 1)
  den := Config.openFeedbackDenPred + 1

/-- `SIGNAL`: `N` open bits (R8, R9, R31). -/
def Config.signal : List Bool := (List.range Config.hwSignalLength).map Config.openSignalBit

/-- The hardware's configuration: R8's values where the spec fixes or decides one, open constants elsewhere. -/
def Config.hw : Config where
  wordWidth := W
  signalLength := Config.hwSignalLength
  streamLength := ceilDiv Config.hwSignalLength W
  tSym := ⟨1, Config.hwFreqHz.toNat⟩
  flushWords := 1
  cooldown := Config.hwCooldown
  feedbackDelay := Config.hwFeedbackDelay
  freqHz := Config.hwFreqHz
  outPin := Config.openOutPin
  repeatCount := 10
  cooldownTicks := Config.hwCooldown.ticks Config.hwFreqHz.toNat
  feedbackTicks := Config.hwFeedbackDelay.ticks Config.hwFreqHz.toNat
  fifoDepth := Config.openFifoDepthPred + 1
  pinCount := Config.openPinCount
  pinsAvailable := (List.range Config.openPinCount).filter Config.openPinAvailable
  fSys := Config.hwFreqHz.toNat * (Config.openDivisorPred + 1)
  divMax := Config.openDivisorPred + 1 + Config.openDivisorSlack
  starvePolicy := .holdLast

end Sys2Proof
end

