-- ==== Sys2Proof/Syntax.lean ====
section
/-! DEFINITION. The operation set (spec 30_encoding.md R101, R102, R110): one constructor per row of
spec/opcode_table.json. -/

namespace Sys2Proof

/-- The operations of the core, the two symbols and the two word rows. -/
inductive Instr where
  /-- `SYM.ON`: emit the symbol 1 (R101, R181). -/
  | symOn
  /-- `SYM.OFF`: emit the symbol 0 (R101, R181). -/
  | symOff
  /-- `WORD w`: the sequencer emits the 32 symbols of `w` (R102, R114). -/
  | word (w : Word)
  /-- `WORD.ZERO`: the flush word, 32 `SYM.OFF` (R110, R154). -/
  | wordZero
  /-- `ENCODE bits, W` (R130). -/
  | encode (bits : List Bool) (width : Nat)
  /-- `START f, p` (R150). -/
  | start (f : BitVec 32) (p : Nat)
  /-- `ENQ w` (R152). -/
  | enq (w : Word)
  /-- `FLUSH` (R154). -/
  | flush
  /-- `TICK.PULL` (R156). -/
  | tickPull
  /-- `TICK.SHIFT` (R157). -/
  | tickShift
  /-- `TICK.STARVE` (R158). -/
  | tickStarve
  /-- `CTL.BEGIN` (R201). -/
  | ctlBegin
  /-- `CTL.SEND` (R202). -/
  | ctlSend
  /-- `CTL.ENDPASS` (R203). -/
  | ctlEndPass
  /-- `CTL.TOFLUSH` (R204). -/
  | ctlToFlush
  /-- `CTL.TOCOOL` (R205). -/
  | ctlToCool
  /-- `CTL.COOLDONE` (R206). -/
  | ctlCoolDone
  /-- `FB.TOGGLE` (R212). -/
  | fbToggle
  /-- `FB.IDLE` (R213). -/
  | fbIdle
deriving DecidableEq, Repr

end Sys2Proof
end

