-- ==== Sys2Proof/WellFormed.lean ====
section
/-! DEFINITION. Which operations are well formed: legal operand values (spec 30_encoding.md R109), each written in the
one spelling the operation list gives its encoding (R110). -/

namespace Sys2Proof

/-- `ENCODE` needs `W ≥ 1` (R109, R140). Selector 2 with `w = 0` is listed as `FLUSH` (R110), and the word value 0 as
`WORD.ZERO`, so `ENQ 0` and `WORD 0` are not the well-formed spelling of their own words; they still have their meaning
in `exec`. Every other operand value is legal (R108). -/
def Instr.wellFormed : Instr → Bool
  | .encode _ width => decide (1 ≤ width)
  | .enq w => decide (w ≠ 0#32)
  | .word w => decide (w ≠ 0#32)
  | .symOn => true
  | .symOff => true
  | .wordZero => true
  | .start _ _ => true
  | .flush => true
  | .tickPull => true
  | .tickShift => true
  | .tickStarve => true
  | .ctlBegin => true
  | .ctlSend => true
  | .ctlEndPass => true
  | .ctlToFlush => true
  | .ctlToCool => true
  | .ctlCoolDone => true
  | .fbToggle => true
  | .fbIdle => true

end Sys2Proof
end

