-- ==== Sys2Proof/Decode.lean ====
section
/-! DEFINITION. The encodings (spec 30_encoding.md R100 to R102, R110 to R112): a line of a trace as its format and
its numbers, the decoder, total and rejecting what names no operation, and the encoder. -/

namespace Sys2Proof

/-- One encoded line. The three formats are told apart by what carries them (R100), not by bits: a symbol stands on the
line, a word in the FIFO, an operation in a trace. An operation is its selector and its operand words (R110, R112); a
word is one 32-bit value and never a row of bytes (R72). -/
inductive Line where
  /-- Format SYM: one bit (R101). -/
  | sym (b : BitVec 1)
  /-- Format WORD: 32 bits (R102). -/
  | word (w : Word)
  /-- Format OP: selector, then the operands as numbers. -/
  | op (sel : Nat) (operands : List Nat)
deriving DecidableEq, Repr

/-- A bit-sequence element written as a number: anything but 0 or 1 cannot be written (R109, D25). -/
def decodeBit : Nat → Option Bool
  | 0 => some false
  | 1 => some true
  | _ + 2 => none

/-- The elements of a bit sequence, all of them bits. -/
def decodeBits : List Nat → Option (List Bool)
  | [] => some []
  | n :: ns =>
    match decodeBit n, decodeBits ns with
    | some b, some bs => some (b :: bs)
    | _, _ => none

/-- A 32-bit operand (R48 CR0, R102). -/
def decodeWord32 (n : Nat) : Option Word :=
  if n < 2 ^ 32 then some (BitVec.ofNat 32 n) else none

/-- Selector 1's operands, `f` and `p` (R150). -/
def decodeStart (f p : Nat) : Option Instr :=
  match decodeWord32 f with
  | some f32 => some (.start f32 p)
  | none => none

/-- Selector 2: `ENQ w`, and `FLUSH` when `w = 0` (R110, R154). -/
def decodeEnq (n : Nat) : Option Instr :=
  match decodeWord32 n with
  | some w => if w = 0#32 then some .flush else some (.enq w)
  | none => none

/-- Selector 0: the width, then the bits (R130). -/
def decodeEncode (width : Nat) (elements : List Nat) : Option Instr :=
  match decodeBits elements with
  | some bits => some (.encode bits width)
  | none => none

/-- The operation that a selector and its operands name (R110); 14, 15 and anything above name none (R111). -/
def decodeOp (sel : Nat) (operands : List Nat) : Option Instr :=
  match sel, operands with
  | 0, width :: elements => decodeEncode width elements
  | 1, [f, p] => decodeStart f p
  | 2, [w] => decodeEnq w
  | 3, [] => some .tickPull
  | 4, [] => some .tickShift
  | 5, [] => some .tickStarve
  | 6, [] => some .ctlBegin
  | 7, [] => some .ctlSend
  | 8, [] => some .ctlEndPass
  | 9, [] => some .ctlToFlush
  | 10, [] => some .ctlToCool
  | 11, [] => some .ctlCoolDone
  | 12, [] => some .fbToggle
  | 13, [] => some .fbIdle
  | _, _ => none

/-- The decoder. `none` is a line that names no operation. -/
def decode : Line → Option Instr
  | .sym b => some (if b = 1#1 then .symOn else .symOff)
  | .word w => some (if w = 0#32 then .wordZero else .word w)
  | .op sel operands => decodeOp sel operands

/-- The encoder: the line of a well-formed operation (R101, R102, R110). -/
def encode : Instr → Line
  | .symOn => .sym 1#1
  | .symOff => .sym 0#1
  | .word w => .word w
  | .wordZero => .word 0#32
  | .encode bits width => .op 0 (width :: bits.map Bool.toNat)
  | .start f p => .op 1 [f.toNat, p]
  | .enq w => .op 2 [w.toNat]
  | .flush => .op 2 [0]
  | .tickPull => .op 3 []
  | .tickShift => .op 4 []
  | .tickStarve => .op 5 []
  | .ctlBegin => .op 6 []
  | .ctlSend => .op 7 []
  | .ctlEndPass => .op 8 []
  | .ctlToFlush => .op 9 []
  | .ctlToCool => .op 10 []
  | .ctlCoolDone => .op 11 []
  | .fbToggle => .op 12 []
  | .fbIdle => .op 13 []

/-- The operand words of zeros that follow a selector for which the opcode table gives no operand bits. -/
def zeroOperands : Nat → List Nat
  | 0 => [0]
  | 1 => [0, 0]
  | 2 => [0]
  | _ + 3 => []

/-- The line that a row of spec/opcode_table.json stands for, from its width and its bits. A row of 32 bits is a WORD;
a width of exactly 1 is a SYM; every other width is an OP whose selector is the whole number. The table's SYM rows (1 bit)
and OP rows (4 bits) are BOTH one byte when counted in whole bytes, with the same numbers 0 and 1: there the OP is taken
(notes/assumptions/6.md). -/
def tableLine (nbits w : Nat) : Line :=
  if nbits = 32 then .word (BitVec.ofNat 32 w)
  else if nbits = 1 then .sym (BitVec.ofNat 1 w)
  else .op w (zeroOperands w)

/-- The instruction the decoder reads from a table row's bits. -/
def decodeTableWord (nbits w : Nat) : Option Instr := decode (tableLine nbits w)

end Sys2Proof
end

