-- ==== Sys2Proof/Machine/State.lean ====
section
/-! DEFINITION. The state of the OOKTX core (spec 10_state.md R30 to R51), its reset, and the ways a step can stop. -/

namespace Sys2Proof.Machine

/-- The level on the output line (R12, R38, R180). -/
inductive Level where
  /-- Not driven by the core. -/
  | z
  /-- Logical low: carrier absent, the inactive level. -/
  | low
  /-- Logical high: carrier present. -/
  | high
deriving DecidableEq, Repr

/-- The controller's four states (R42, R200). -/
inductive CtlState where
  | idle
  | transmitting
  | flushing
  | cooldown
deriving DecidableEq, Repr

/-- The causes of a `ConfigError`, a subset of two (R46, R231): code 1 and code 2. -/
structure Causes where
  /-- Cause `PinInvalid`, code 1 (R232). -/
  pinInvalid : Bool
  /-- Cause `FreqUnrealizable`, code 2 (R233). -/
  freqUnrealizable : Bool
deriving DecidableEq, Repr

/-- The calls the core makes to the external FeedbackSink (R47, R212, R213). -/
inductive FbCall where
  | toggle
  | idle
deriving DecidableEq, Repr

/-- Everything the spec gives the machine (R30), its configuration (R48), and, last, three fields of the model's own. -/
structure State where
  /-- The configuration (R8, R9, R48); no operation writes it (R265). -/
  cfg : Config
  /-- `BITS`, the bit sequence to transmit (R31). -/
  bits : List Bool
  /-- BOOT has stored `WS` (R32, R201). -/
  wsStored : Bool
  /-- `WS`, the word stream (R32); `L` (CR5) is its length. -/
  ws : List Word
  /-- `SEQ.started` (R33). -/
  started : Bool
  /-- `SEQ.cfg_freq` (R34). -/
  cfgFreq : BitVec 32
  /-- `SEQ.cfg_pin` (R34). -/
  cfgPin : Nat
  /-- `SEQ.FIFO`, head first (R35). -/
  fifo : List Word
  /-- `SEQ.OSR` (R36). -/
  osr : Word
  /-- `SEQ.CNT` (R37). -/
  cnt : Nat
  /-- `OUT.LINE` (R38). -/
  line : Level
  /-- `CTL.state` (R42). -/
  ctl : CtlState
  /-- `CTL.r`, passes completed in this burst (R43). -/
  r : Nat
  /-- `CTL.j`, the next word index of this pass (R44). -/
  j : Nat
  /-- `CTL.cool` (R45). -/
  cool : Nat
  /-- `CTL.fbwait` (R45). -/
  fbwait : Nat
  /-- `SYS.fault` (R46). -/
  fault : Option Causes
  /-- `TICKS`, ghost (R39). -/
  ticks : Nat
  /-- `EMIT`, ghost: the bits emitted so far (R40). -/
  emit : List Bool
  /-- `WAVE`, ghost: one level per tick (R40). -/
  wave : List Level
  /-- `ENQS`, ghost: the words accepted so far (R40). -/
  enqs : List Word
  /-- The calls made to FeedbackSink, oldest first: the events R47, R212 and R213 let a model record. -/
  fb : List FbCall
  /-- MODEL'S OWN: the words the last `ENCODE` returned to its caller (R130's result). -/
  encResult : List Nat
  /-- MODEL'S OWN: the trace (R112), the operations that come next in an interleaving chosen from outside. -/
  trace : List Line
  /-- MODEL'S OWN: how many free-running choices of the open schedule have been used (R7, R50, D17). -/
  sched : Nat
deriving DecidableEq, Repr

/-- How the machine stops with a fault. -/
inductive Fault where
  /-- Raised by `step` when a `ConfigError` is recorded and no operation is presented: nothing can ever step again, and the
  run is reported as faulted, never as final (R240, D28). Safe: nothing is provable of a continuation. -/
  | configError (causes : Causes)
deriving DecidableEq, Repr

/-- How the machine refuses (R15 Refuse): the spec gives the operation no meaning in the state. Each is safe: the model
proves nothing of such a run. -/
inductive Refusal where
  /-- Raised by `exec` for an instruction that has no meaning yet; no arm raises it. Safe. -/
  | notModelled (mnemonic : String)
  /-- Raised by every operation while a fault is recorded (R162 c, R240). Safe. -/
  | afterFault
  /-- Raised by an operation that needs a started sequencer: `ENQ`, `FLUSH` (R162 a), a tick (R167), a controller
  transition (R201), a call of FeedbackSink (R77, R217), a symbol or word emission (R190). Safe. -/
  | notStarted
  /-- Raised by a second `START` (R162 b). Safe. -/
  | alreadyStarted
  /-- Raised by a tick step or a controller transition in a state whose row in R155 or R217 is another one. Safe. -/
  | notEnabled
  /-- Raised by `SYM.ON` and `SYM.OFF` where the next symbol the sequencer emits is not that one (R181, R185). Safe. -/
  | symbolNotNext
  /-- Raised by `WORD` and `WORD.ZERO` where the next word the sequencer emits is not that one (R114, R156). Safe. -/
  | wordNotNext
  /-- Raised by `ENCODE` with `W = 0` (R109, R140). Safe. -/
  | widthZero
  /-- Raised by `CTL.BEGIN` in a configuration with `REPEAT = 0`, which is none of this hardware (R109, D10); that no
  other operation raises it is the model's choice (notes/assumptions/21.md). Safe. -/
  | repeatZero
  /-- Raised by `step` on a trace line that names no operation (R109, R111). Safe. -/
  | reservedEncoding
deriving DecidableEq, Repr

/-- What an operation applied to a state gives (R15): the next state stands for a Step, and, unchanged, for a Hold. -/
abbrev Result := Host.Outcome State Fault Refusal

/-- Power-on with the configuration `c` and the bit sequence `bits` (R51, R260, R261): every rule is stated over the
configuration's names, so that other values than the hardware's can be taken (R8, R273). `WS` (until BOOT stores it),
`cfg_freq` and `cfg_pin` are unspecified there and hold the model's values: `L` zero words, 0 and 0
(notes/assumptions/2.md). `L`, the length of `WS`, is the constant of CR5 from the start (R48). -/
def State.powerOn (c : Config) (bits : List Bool) : State where
  cfg := c
  bits := bits
  wsStored := false
  ws := List.replicate c.streamLength 0#32
  started := false
  cfgFreq := 0#32
  cfgPin := 0
  fifo := []
  osr := 0#32
  cnt := W
  line := .z
  ctl := .idle
  r := 0
  j := 0
  cool := 0
  fbwait := c.feedbackTicks
  fault := none
  ticks := 0
  emit := []
  wave := []
  enqs := []
  fb := []
  encResult := []
  trace := []
  sched := 0

/-- The hardware right after reset: power-on with its own configuration and `SIGNAL`. -/
def State.reset : State := State.powerOn Config.hw Config.signal

end Sys2Proof.Machine
end

