-- ==== Sys2Proof/Machine/Flags.lean ====
section
/-! DEFINITION. The four conditions of the sequencer (spec 10_state.md R41). None is stored: each is a function of the
state. -/

namespace Sys2Proof.Machine

/-- `fifo_full`: `FifoLen() = FIFO_DEPTH` (R41). Written `≥`, since a push is defined only below the capacity (R14); the
two agree wherever R52.1 holds. -/
def State.fifoFull (s : State) : Bool := decide (s.cfg.fifoDepth ≤ s.fifo.length)

/-- `fifo_empty`: `FifoLen() = 0` (R41). -/
def State.fifoEmpty (s : State) : Bool := s.fifo.isEmpty

/-- `osr_empty`: `CNT = W` (R41), written `≥`; `CNT` never exceeds `W` (R52.2). -/
def State.osrEmpty (s : State) : Bool := decide (W ≤ s.cnt)

/-- `starved` (R41). -/
def State.starved (s : State) : Bool := s.started && s.osrEmpty && s.fifoEmpty

end Sys2Proof.Machine
end

