-- ==== Sys2Proof/Machine/Operands.lean ====
section
/-! DEFINITION. Operand assembly and the reading of stores: packing bits into words and unpacking them (spec
30_encoding.md R103 to R106, 40_encoder.md R130, R131), and the indexed read of `WS` (00_scope.md R14). -/

namespace Sys2Proof.Machine

/-- The value of one chunk: bit `i` at weight `2^i` (R103). -/
def chunkValue : List Bool → Nat
  | [] => 0
  | b :: bs => b.toNat + 2 * chunkValue bs

/-- Chunk `k` of a bit sequence: `bits[k×W .. min((k+1)×W, n))` (R73). -/
def chunk (width k : Nat) (bits : List Bool) : List Bool := (bits.drop (k * width)).take width

/-- The function `ENCODE(bits, W)` (R130): word `k` is the value of chunk `k`, for `k < ceil(n / W)`. -/
def packBits (width : Nat) (bits : List Bool) : List Nat :=
  (List.range (ceilDiv bits.length width)).map fun k => chunkValue (chunk width k bits)

/-- `UNPACK(words, W)` (R131): each word from position 0 to position `W-1`, in word order. -/
def unpack (width : Nat) (words : List Nat) : List Bool :=
  words.flatMap fun w => (List.range width).map w.testBit

/-- `ENCODE(bits, 32)` as the 32-bit words that `WS` holds (R32, R105). -/
def packWords (bits : List Bool) : List Word := (packBits W bits).map (BitVec.ofNat 32)

/-- The symbols a word stands for, first emitted first (R114): `UNPACK([w], 32)`. -/
def wordBits (w : Word) : List Bool := (List.range W).map w.getLsbD

/-- `UNPACK` of 32-bit words. -/
def unpackWords (ws : List Word) : List Bool := ws.flatMap wordBits

/-- Format BURST (R106): `REPEAT` passes over the word stream, then the flush word. -/
def burstWords (repeatCount : Nat) (ws : List Word) : List Word :=
  (List.replicate repeatCount ws).flatten ++ [0#32]

/-- `MemRead(j, 32)` of `WS` (R14, R74); its index is below `L` wherever `CTL.SEND` reads it (R202). -/
def State.memRead (s : State) (k : Nat) : Word := s.ws.getD k 0#32

/-- `L`, CR5: the length of `WS` (R48), in a run of the hardware the constant `cfg.streamLength` from reset on. -/
def State.streamLen (s : State) : Nat := s.ws.length

/-- The bits still in the shift register, low position first, `W - CNT` of them (R80). -/
def State.osrBits (s : State) : List Bool := (List.range (W - s.cnt)).map s.osr.getLsbD

/-- The level that a symbol puts on the line (R101, R181). -/
def Level.ofBit (b : Bool) : Level := if b then .high else .low

end Sys2Proof.Machine
end

