-- ==== Sys2Proof/Machine/Ops.lean ====
section
/-! DEFINITION. The operations that instructions share: the gates of R162, the FIFO's push, the tick, the call of
FeedbackSink, and taking the one exception. -/

namespace Sys2Proof.Machine

/-! ### Where an operation has no meaning at all -/

/-- An operation with no condition but R162 (c): while a fault is recorded, no operation takes a step (R240). -/
def ifNoFault (s : State) (k : Result) : Result :=
  match s.fault with
  | some _ => .refused .afterFault
  | none => k

/-- An operation of a started sequencer (R162 a, R167). -/
def ifRunning (s : State) (k : Result) : Result :=
  ifNoFault s (if s.started then k else .refused .notStarted)

/-- An operation that the table of its agent must select (R155, R217). -/
def ifEnabled (c : Bool) (k : Result) : Result := if c then k else .refused .notEnabled

/-- A hold (R15): while the condition is true the issuing agent waits and no state changes (R84, R153). -/
def orHold (c : Bool) (s : State) (k : Result) : Result := if c then .next s else k

/-! ### The exception: ConfigError -/

/-- All the causes that apply to `START f, p` (R150, R231 to R233). -/
def startCauses (c : Config) (f : BitVec 32) (p : Nat) : Causes where
  pinInvalid := !c.pinOk p
  freqUnrealizable := !c.realizable f.toNat

/-- The set of causes is not empty. -/
def Causes.any (c : Causes) : Bool := c.freqUnrealizable || c.pinInvalid

/-- Taking the exception (R234, R240): the causes are recorded and nothing else changes; there is no handler, no saved
state and no mode. There is NO return from it (R241): no operation clears `SYS.fault`. -/
def takeConfigError (c : Causes) (s : State) : State := { s with fault := some c }

/-- The successful `START` (R150, R183): the operands are bound, the sequencer runs, the line is driven inactive. -/
def bindSequencer (f : BitVec 32) (p : Nat) (s : State) : State :=
  { s with cfgFreq := f, cfgPin := p, started := true, line := Level.ofBit Config.idleBit }

/-! ### The stores -/

/-- BOOT stores the word stream: `MemWrite(k, 32, ws[k])` for every `k` (R32, R263). -/
def storeStream (words : List Word) (s : State) : State := { s with ws := words, wsStored := true }

/-- `ENCODE`'s result goes back to its caller (R130). -/
def returnWords (words : List Nat) (s : State) : State := { s with encResult := words }

/-- `FifoPush(w)` at the tail, with its record in `ENQS` (R152). -/
def pushWord (w : Word) (s : State) : State := { s with fifo := s.fifo ++ [w], enqs := s.enqs ++ [w] }

/-- `ENQ(w)` then the rest of the step (R152, R153): the step waits while the FIFO is full. -/
def enqThen (w : Word) (after : State → State) (s : State) : Result :=
  orHold s.fifoFull s (.next (after (pushWord w s)))

/-! ### The tick -/

/-- One symbol on the line (R181): the level is the bit's, and the bit joins `EMIT` (R40). -/
def emitSymbol (b : Bool) (s : State) : State := { s with line := Level.ofBit b, emit := s.emit ++ [b] }

/-- `FifoPop()` of the head `w` into the shift register, bit 0 gone (R156). -/
def loadWord (w : Word) (rest : List Word) (s : State) : State :=
  { s with fifo := rest, osr := w >>> 1, cnt := 1 }

/-- The shift register moves right by one, a zero entering at position 31 (R157). -/
def shiftOsr (s : State) : State := { s with osr := s.osr >>> 1, cnt := s.cnt + 1 }

/-- What all three tick steps do besides (R155): time, the waveform, and the two waits of the controller (R45). -/
def countTick (s : State) : State :=
  { s with
    ticks := s.ticks + 1
    wave := s.wave ++ [s.line]
    cool := if s.ctl = .cooldown then s.cool + 1 else s.cool
    fbwait := if s.ctl = .transmitting then s.fbwait + 1 else s.fbwait }

/-- The state after `TICK.PULL` of the head `w` (R156). -/
def pulled (w : Word) (rest : List Word) (s : State) : State :=
  countTick (loadWord w rest (emitSymbol (w.getLsbD 0) s))

/-- The state after `TICK.SHIFT` (R157). -/
def shifted (s : State) : State := countTick (shiftOsr (emitSymbol (s.osr.getLsbD 0) s))

/-- The line at a starved tick (R158, R187). -/
def starvedLevel (p : StarvePolicy) (l : Level) : Level :=
  match p with
  | .holdLast => l
  | .idleLow => .low

/-- The state after `TICK.STARVE` (R158). -/
def starvedTick (s : State) : State := countTick { s with line := starvedLevel s.cfg.starvePolicy s.line }

/-- The state after one tick, whichever of the three steps it is (R155). -/
def tick (s : State) : State :=
  if s.osrEmpty then
    match s.fifo with
    | w :: rest => pulled w rest s
    | [] => starvedTick s
  else shifted s

/-- `TICK xn` (R113). -/
def ticksN : Nat → State → State
  | 0, s => s
  | n + 1, s => ticksN n (tick s)

/-- The symbol the next tick emits, if it emits one (R155). -/
def State.nextSymbol (s : State) : Option Bool :=
  if s.osrEmpty then s.fifo.head?.map (·.getLsbD 0) else some (s.osr.getLsbD 0)

/-- The word whose 32 symbols the next 32 ticks emit, if they are a word's (R164). -/
def State.nextWord (s : State) : Option Word := if s.osrEmpty then s.fifo.head? else none

/-- The symbol `b` is emitted at a tick (R181): the symbol is the bit that the tick step takes from the word, and the
line changes at ticks only (R184, R185). -/
def emitNext (b : Bool) (s : State) : Result :=
  if s.nextSymbol = some b then .next (tick s) else .refused .symbolNotNext

/-- The sequencer decodes the word `w` (R114): its 32 symbols at 32 consecutive ticks (R164). -/
def emitWord (w : Word) (s : State) : Result :=
  if s.nextWord = some w then .next (ticksN W s) else .refused .wordNotNext

/-! ### The controller -/

/-- `call FB.<op>` (R14, R212 to R214): an output; it returns at once and its failure is discarded. -/
def callFb (c : FbCall) (s : State) : State := { s with fb := s.fb ++ [c] }

/-- The controller moves (R217). -/
def setCtl (state : CtlState) (r j : Nat) (s : State) : State := { s with ctl := state, r := r, j := j }

end Sys2Proof.Machine
end

