-- ==== Sys2Proof/Machine/Controller.lean ====
section
/-! DEFINITION. The burst controller family (spec 43_controller.md). -/

namespace Sys2Proof.Machine

/-- The conditions of R217's rows, one for each transition, its hold apart. -/
def State.beginDue (s : State) : Bool := decide (s.ctl = .idle) && s.wsStored

@[inherit_doc State.beginDue]
def State.sendDue (s : State) : Bool :=
  decide (s.ctl = .transmitting) && decide (s.r < s.cfg.repeatCount) && decide (s.j < s.streamLen)

@[inherit_doc State.beginDue]
def State.endPassDue (s : State) : Bool :=
  decide (s.ctl = .transmitting) && decide (s.r < s.cfg.repeatCount) && decide (s.j = s.streamLen)

@[inherit_doc State.beginDue]
def State.flushDue (s : State) : Bool := decide (s.ctl = .transmitting) && decide (s.r = s.cfg.repeatCount)

/-- The inter-repeat feedback delay is not over (R202, R216). -/
def State.inFeedbackDelay (s : State) : Bool := decide (s.fbwait < s.cfg.feedbackTicks)

/-- The cooldown is not over (R206). -/
def State.inCooldownWait (s : State) : Bool := decide (s.cool < s.cfg.cooldownTicks)

/-- `CTL.BEGIN` (R201). A configuration with `REPEAT = 0` is refused (R109, D10); no rule names the operation, and that it is
this one, the others stepping as they do elsewhere, is the model's choice (notes/assumptions/21.md). -/
def execCtlBegin (s : State) : Result :=
  ifRunning s
    (ifEnabled s.beginDue
      (if s.cfg.repeatCount = 0 then .refused .repeatZero
      else .next { setCtl .transmitting 0 0 s with fbwait := s.cfg.feedbackTicks }))

/-- `CTL.SEND` (R202): waits for `fbwait` and for room in the FIFO. -/
def execCtlSend (s : State) : Result :=
  ifRunning s
    (ifEnabled s.sendDue
      (orHold s.inFeedbackDelay s
        (enqThen (s.memRead s.j) (setCtl .transmitting s.r (s.j + 1)) s)))

/-- `CTL.ENDPASS` (R203). -/
def execCtlEndPass (s : State) : Result :=
  ifRunning s
    (ifEnabled s.endPassDue
      (.next { setCtl .transmitting (s.r + 1) 0 (callFb .toggle s) with fbwait := 0 }))

/-- `CTL.TOFLUSH` (R204): waits for room in the FIFO, not for `fbwait`. Exactly one zero word, the `FLUSH_WORDS = 1` of
every legal configuration. -/
def execCtlToFlush (s : State) : Result :=
  ifRunning s
    (ifEnabled s.flushDue
      (enqThen 0#32 (setCtl .flushing s.r s.j) s))

/-- `CTL.TOCOOL` (R205). -/
def execCtlToCool (s : State) : Result :=
  ifRunning s
    (ifEnabled (decide (s.ctl = .flushing))
      (.next { setCtl .cooldown s.r s.j (callFb .idle s) with cool := 0 }))

/-- `CTL.COOLDONE` (R206): waits until `COOLDOWN_TICKS` ticks have passed. -/
def execCtlCoolDone (s : State) : Result :=
  ifRunning s
    (ifEnabled (decide (s.ctl = .cooldown))
      (orHold s.inCooldownWait s (.next (setCtl .idle 0 0 s))))

/-- `FB.TOGGLE` (R212): an output, no state of the core. Before `START` it is refused: from reset the only enabled activity
is BOOT's sequence (R77), and the controller, whose call it is, has no step (R217). Presented alone once the sequencer is
started, in the controller's place, it steps whatever the controller's state: the model's choice
(notes/assumptions/20.md). -/
def execFbToggle (s : State) : Result := ifRunning s (.next (callFb .toggle s))

/-- `FB.IDLE` (R213): an output, no state of the core; refused before `START` (R77, R217), and presented alone once started
it steps like `FB.TOGGLE`, by the same choice (notes/assumptions/20.md). -/
def execFbIdle (s : State) : Result := ifRunning s (.next (callFb .idle s))

end Sys2Proof.Machine
end

