-- ==== Sys2Proof/Machine/Encoder.lean ====
section
/-! DEFINITION. The encoder family (spec 40_encoder.md). -/

namespace Sys2Proof.Machine

/-- BOOT's own `ENCODE`, whose words it stores as `WS`: that of `BITS` at width 32, once (R32, R262 step 3, R263). -/
def isBootEncode (bits : List Bool) (width : Nat) (s : State) : Bool :=
  !s.wsStored && decide (width = W) && decide (bits = s.bits)

/-- `ENCODE bits, W` (R130, R136): a pure function; its words go back to the caller, and BOOT stores those of its one
`ENCODE(BITS, 32)`. `W = 0` is refused (R109, R140). -/
def execEncode (bits : List Bool) (width : Nat) (s : State) : Result :=
  ifNoFault s
    (if width = 0 then .refused .widthZero
    else .next (returnWords (packBits width bits)
      (if isBootEncode bits width s then storeStream (packWords bits) s else s)))

end Sys2Proof.Machine
end

