-- ==== Sys2Proof/Machine/Output.lean ====
section
/-! DEFINITION. The output family: the two symbols and the words that carry them (spec 30_encoding.md R101, R102, R114;
42_ook_output_gpio.md R181). -/

namespace Sys2Proof.Machine

/-- `SYM.ON` (R181): the tick that emits the bit 1. -/
def execSymOn (s : State) : Result := ifRunning s (emitNext true s)

/-- `SYM.OFF` (R181): the tick that emits the bit 0. -/
def execSymOff (s : State) : Result := ifRunning s (emitNext false s)

/-- `WORD w` (R114): the 32 ticks that emit the word. -/
def execWord (w : Word) (s : State) : Result := ifRunning s (emitWord w s)

/-- `WORD.ZERO` (R154): the 32 ticks that emit the flush word, 32 `SYM.OFF`. -/
def execWordZero (s : State) : Result := ifRunning s (emitWord 0#32 s)

end Sys2Proof.Machine
end

