-- ==== Sys2Proof/Machine/Sequencer.lean ====
section
/-! DEFINITION. The sequencer family (spec 41_sequencer.md). -/

namespace Sys2Proof.Machine

/-- `START f, p` (R150, R151): refused after a fault or a success (R162); takes `ConfigError` with every cause that
applies; otherwise the sequencer runs. -/
def execStart (f : BitVec 32) (p : Nat) (s : State) : Result :=
  ifNoFault s
    (if s.started then .refused .alreadyStarted
    else if (startCauses s.cfg f p).any then .next (takeConfigError (startCauses s.cfg f p) s)
    else .next (bindSequencer f p s))

/-- `ENQ w` (R152, R153). -/
def execEnq (w : Word) (s : State) : Result := ifRunning s (enqThen w id s)

/-- `FLUSH` is `ENQ 0x00000000` (R154). -/
def execFlush (s : State) : Result := ifRunning s (enqThen 0#32 id s)

/-- `TICK.PULL` (R156): enabled when the shift register is empty and the FIFO is not. -/
def execTickPull (s : State) : Result :=
  ifRunning s
    (match s.fifo with
    | w :: rest => ifEnabled s.osrEmpty (.next (pulled w rest s))
    | [] => .refused .notEnabled)

/-- `TICK.SHIFT` (R157): enabled while the word in the shift register is not finished; it does not look at the FIFO. -/
def execTickShift (s : State) : Result := ifRunning s (ifEnabled (!s.osrEmpty) (.next (shifted s)))

/-- `TICK.STARVE` (R158): enabled when the sequencer needs a word and the FIFO has none. -/
def execTickStarve (s : State) : Result :=
  ifRunning s (ifEnabled (s.osrEmpty && s.fifoEmpty) (.next (starvedTick s)))

end Sys2Proof.Machine
end

