-- ==== Sys2Proof/Machine/Dispatch.lean ====
section
/-! DEFINITION. One operation applied to a state: one arm per constructor of Instr. -/

namespace Sys2Proof.Machine

def exec (i : Instr) (s : State) : Host.Outcome State Fault Refusal :=
  match i with
  | .symOn => Sys2Proof.Machine.execSymOn s
  | .symOff => Sys2Proof.Machine.execSymOff s
  | .word w => Sys2Proof.Machine.execWord w s
  | .wordZero => Sys2Proof.Machine.execWordZero s
  | .encode bits width => Sys2Proof.Machine.execEncode bits width s
  | .start f p => Sys2Proof.Machine.execStart f p s
  | .enq w => Sys2Proof.Machine.execEnq w s
  | .flush => Sys2Proof.Machine.execFlush s
  | .tickPull => Sys2Proof.Machine.execTickPull s
  | .tickShift => Sys2Proof.Machine.execTickShift s
  | .tickStarve => Sys2Proof.Machine.execTickStarve s
  | .ctlBegin => Sys2Proof.Machine.execCtlBegin s
  | .ctlSend => Sys2Proof.Machine.execCtlSend s
  | .ctlEndPass => Sys2Proof.Machine.execCtlEndPass s
  | .ctlToFlush => Sys2Proof.Machine.execCtlToFlush s
  | .ctlToCool => Sys2Proof.Machine.execCtlToCool s
  | .ctlCoolDone => Sys2Proof.Machine.execCtlCoolDone s
  | .fbToggle => Sys2Proof.Machine.execFbToggle s
  | .fbIdle => Sys2Proof.Machine.execFbIdle s

end Sys2Proof.Machine
end

