-- ==== Sys2Proof/Machine/Schedule.lean ====
section
/-! DEFINITION. Which operation comes next: the sequencer's table (spec 41_sequencer.md R155), the controller's table
(43_controller.md R217), the boot order (70_reset_and_hazards.md R262), the open interleaving (00_scope.md R7, D17), and
the trace in its place (30_encoding.md R112). -/

namespace Sys2Proof.Machine

/-- The sequencer is started and no fault is recorded. -/
def State.running (s : State) : Bool := s.fault.isNone && s.started

/-- `TICK` (R113): the one tick step that the state selects (R155). -/
def nextTick (s : State) : Instr :=
  if s.osrEmpty then (if s.fifoEmpty then .tickStarve else .tickPull) else .tickShift

/-- The controller's transition (R217): the row that applies, whether or not it must wait. -/
def nextCtl (s : State) : Option Instr :=
  match s.ctl with
  | .idle => if s.running && s.wsStored then some .ctlBegin else none
  | .transmitting =>
    if s.r < s.cfg.repeatCount then
      if s.j < s.streamLen then some .ctlSend
      else if s.j = s.streamLen then some .ctlEndPass
      else none
    else if s.r = s.cfg.repeatCount then some .ctlToFlush
    else none
  | .flushing => some .ctlToCool
  | .cooldown => some .ctlCoolDone

/-- The operation holds (R15): its agent waits, and only ticks can end the wait (R153, R206, R216). -/
def holds (i : Instr) (s : State) : Bool :=
  match i with
  | .enq _ => s.running && s.fifoFull
  | .flush => s.running && s.fifoFull
  | .ctlSend => s.running && s.sendDue && (s.inFeedbackDelay || s.fifoFull)
  | .ctlToFlush => s.running && s.flushDue && s.fifoFull
  | .ctlCoolDone => s.running && decide (s.ctl = .cooldown) && s.inCooldownWait
  | .symOn => false
  | .symOff => false
  | .word _ => false
  | .wordZero => false
  | .encode _ _ => false
  | .start _ _ => false
  | .tickPull => false
  | .tickShift => false
  | .tickStarve => false
  | .ctlBegin => false
  | .ctlEndPass => false
  | .ctlToCool => false
  | .fbToggle => false
  | .fbIdle => false

/-- What the free-running machine does next, with no trace to follow. A started sequencer ticks whenever the open
schedule says so, which it does for ever (R150). Otherwise it is the other agent's turn, again and again (R210, R249):
BOOT's while boot is not over (`ENCODE`, then `START`: R262 steps 3 and 4), the controller's from then on (step 5). `none`
is a controller that waits. -/
def freeRunning (s : State) : Option Instr :=
  if s.started && decide (Config.openSchedule s.sched = .seq) then some (nextTick s)
  else if !s.wsStored then some (.encode s.bits s.cfg.wordWidth)
  else if !s.started then some (.start s.cfg.freqHz s.cfg.outPin)
  else (nextCtl s).filter fun i => !holds i s

/-- The choice that `freeRunning` read is used up. -/
def spendChoice (s : State) : State := { s with sched := s.sched + 1 }

/-- The first line of the trace is taken. -/
def withTrace (t : List Line) (s : State) : State := { s with trace := t }

/-- `PASS` (R113). -/
def passOps (ws : List Word) : List Instr := ws.map .enq

/-- `BURST` (R113). -/
def burstOps (repeatCount : Nat) (ws : List Word) : List Instr :=
  (List.replicate repeatCount (passOps ws ++ [.fbToggle])).flatten ++ [.flush, .fbIdle]

end Sys2Proof.Machine
end

