-- ==== Sys2Proof/Machine/Step.lean ====
section
/-! DEFINITION. One step of the whole machine. -/

namespace Sys2Proof.Machine

/-- One step. The hardware fetches nothing (R49): its agents move of themselves, in an interleaving that is open (R7, D17).
With an empty trace that interleaving is `freeRunning`'s; a recorded fault is then the end, and a controller that waits
lets its turn pass. A trace (R112) is an interleaving chosen from outside: its first line is decoded and run; a held
operation stays first, and a tick, the only thing that can end its wait, is taken meanwhile (R15, R84). -/
def step (s : State) : Host.Outcome State Fault Refusal :=
  match s.trace with
  | line :: rest =>
    match decode line with
    | none => .refused .reservedEncoding
    | some i => if holds i s then exec (nextTick s) s else exec i (withTrace rest s)
  | [] =>
    match s.fault with
    | some causes => .fault (.configError causes)
    | none =>
      match freeRunning s with
      | some i => exec i (spendChoice s)
      | none => .next (spendChoice s)

/-- The state with one line put first in the trace: the opcode-table row of `nbits` bits whose bits are `w`. -/
def State.withFetchWord (s : State) (nbits w : Nat) : State := withTrace (tableLine nbits w :: s.trace) s

end Sys2Proof.Machine
end

