-- ==== Sys2Proof/Machine/Ports.lean ====
section
/-! DEFINITION. The port views of spec 20_memory.md R88. Each is a view of a state element; none adds behaviour. -/

namespace Sys2Proof.Machine

/-- `cfg_err`: bit 0 is `PinInvalid` (code 1), bit 1 is `FreqUnrealizable` (code 2), `00` is no fault. -/
def State.cfgErr (s : State) : BitVec 2 :=
  match s.fault with
  | none => 0#2
  | some c => BitVec.ofNat 2 (c.pinInvalid.toNat + 2 * c.freqUnrealizable.toNat)

/-- `tx_ready`: an `ENQ` presented now is accepted. -/
def State.txReady (s : State) : Bool := s.running && !s.fifoFull

/-- The level that the core puts on the GPIO line of index `p` (R182): from `START` on `LINE` is on the line whose index is
`cfg_pin`, and the core drives no other pin; before it, it drives none. -/
def State.pinLevel (s : State) (p : Nat) : Level := if s.started && decide (p = s.cfgPin) then s.line else .z

/-- `ook_oe`: the core drives the line. -/
def State.ookOe (s : State) : Bool := decide (s.line ≠ .z)

/-- `ook_out`: the level of the line while it is driven; `Z` has no level (R190). -/
def State.ookOut (s : State) : Option Bool :=
  match s.line with
  | .z => none
  | .low => some false
  | .high => some true

end Sys2Proof.Machine
end

