-- ==== Sys2Proof/Machine/Timing.lean ====
section
/-! DEFINITION. The reading of ticks as real time (spec 00_scope.md R8, R13; 41_sequencer.md R159; 70_reset_and_hazards.md
R274). No operation reads it. -/

namespace Sys2Proof.Machine

/-- A duration as a rational number of seconds. -/
def durationSeconds (d : Duration) : ℚ := d.num / d.den

/-- The symbol period `T_SYM = 1 / f` in seconds (R8, R159). -/
def symbolPeriod (f : Nat) : ℚ := 1 / f

/-- The real time of tick `n` after `START` (R13), `t0` being `TICK_PHASE`. -/
def tickTime (t0 : ℚ) (f n : Nat) : ℚ := t0 + n * symbolPeriod f

/-- The hardware's `TICK_PHASE`: anything from 0 up to one symbol period (D7, U12), and nothing more is known of it. -/
def hwTickPhase : ℚ :=
  durationSeconds Config.hw.tSym *
    (((Config.openPhaseNum % (Config.openPhaseDenPred + 1) : Nat) : ℚ) / ((Config.openPhaseDenPred + 1 : Nat) : ℚ))

end Sys2Proof.Machine
end

