-- ==== Sys2Proof/Safety.lean ====
section
/-! DEFINITION. What claims are stated in: the invariants of every reachable state (spec 10_state.md R52), and which
states are reachable. -/

namespace Sys2Proof.Machine

/-- R52.1. -/
abbrev State.FifoBounded (s : State) : Prop := s.fifo.length ≤ s.cfg.fifoDepth

/-- R52.2. -/
abbrev State.ShiftRegisterWf (s : State) : Prop := (1 ≤ s.cnt ∧ s.cnt ≤ W) ∧ s.osr.toNat < 2 ^ (W - s.cnt)

/-- R52.3. -/
abbrev State.QuietBeforeStart (s : State) : Prop :=
  s.started = false → s.fifo = [] ∧ s.cnt = W ∧ s.line = .z ∧ s.ticks = 0 ∧ s.enqs = []

/-- R52.4. -/
abbrev State.DrivenOnceStarted (s : State) : Prop := s.started = true → (s.line = .low ∨ s.line = .high) ∧ s.fault = none

/-- R52.5. -/
abbrev State.FaultIsTerminal (s : State) : Prop := s.fault ≠ none → s.started = false ∧ s.ctl = .idle

/-- R52.6. -/
abbrev State.CountersInRange (s : State) : Prop :=
  s.r ≤ s.cfg.repeatCount ∧ s.j ≤ s.streamLen ∧ (s.ctl ≠ .transmitting → s.j = 0) ∧ (s.ctl = .idle → s.r = 0)

/-- R52.7. -/
abbrev State.HistoryLengths (s : State) : Prop := s.wave.length = s.ticks ∧ s.emit.length ≤ s.ticks

/-- R52.8, the emitted-stream law of R80. -/
abbrev State.StreamLaw (s : State) : Prop := s.emit ++ s.osrBits ++ unpackWords s.fifo = unpackWords s.enqs

/-- The eight clauses of R52. -/
abbrev State.R52 (s : State) : Prop :=
  s.FifoBounded ∧ s.ShiftRegisterWf ∧ s.QuietBeforeStart ∧ s.DrivenOnceStarted ∧ s.FaultIsTerminal ∧
    s.CountersInRange ∧ s.HistoryLengths ∧ s.StreamLaw

/-- What R52 leaves unsaid and its own induction needs (DEDUCED, notes/assumptions/9.md): the controller leaves `Idle` only
when the sequencer is started and `WS` is stored (R201); passes are complete only between passes, and stay complete until
the burst is over (R203, R217); the stored word stream is the encoding of `BITS` (R32). -/
abbrev State.BootOrder (s : State) : Prop :=
  (s.started = false ∨ s.wsStored = false → s.ctl = .idle) ∧
    (s.r = s.cfg.repeatCount → s.j = 0) ∧
    (s.ctl = .flushing ∨ s.ctl = .cooldown → s.r = s.cfg.repeatCount) ∧
    (s.wsStored = true → s.ws = packWords s.bits)

/-- The invariant that every operation keeps: a legal configuration, R52, and what its induction needs. -/
abbrev State.Inv (s : State) : Prop := s.cfg.Valid ∧ s.R52 ∧ s.BootOrder

/-- The states reachable from `start` by operations of an agent that issues only those `allowed`, in any order (R7, D17). -/
inductive ReachableFrom (allowed : Instr → Bool) (start : State) : State → Prop where
  | here : ReachableFrom allowed start start
  | op (i : Instr) (s t : State) : ReachableFrom allowed start s → allowed i = true → exec i s = .next t →
      ReachableFrom allowed start t

/-- Every state that the rules of the spec reach from power-on with the configuration `c` and the bit sequence `bits`,
under every interleaving. -/
abbrev Reachable (c : Config) (bits : List Bool) (s : State) : Prop :=
  ReachableFrom (fun _ => true) (State.powerOn c bits) s

/-- A trace's operations one after the other, with nothing between them (R112), as long as each takes a step. -/
def runOps : List Instr → State → Result
  | [], s => .next s
  | i :: rest, s =>
    match exec i s with
    | .next t => runOps rest t
    | .fault f => .fault f
    | .refused r => .refused r

/-- `n` steps of the whole machine, as long as each gives a next state. -/
def runSteps : Nat → State → Result
  | 0, s => .next s
  | n + 1, s =>
    match step s with
    | .next t => runSteps n t
    | .fault f => .fault f
    | .refused r => .refused r

/-- The controller is the FIFO's only producer (R215): no `ENQ` and no `FLUSH` but its own. -/
def controllerOnly : Instr → Bool
  | .enq _ => false
  | .flush => false
  | .symOn => true
  | .symOff => true
  | .word _ => true
  | .wordZero => true
  | .encode _ _ => true
  | .start _ _ => true
  | .tickPull => true
  | .tickShift => true
  | .tickStarve => true
  | .ctlBegin => true
  | .ctlSend => true
  | .ctlEndPass => true
  | .ctlToFlush => true
  | .ctlToCool => true
  | .ctlCoolDone => true
  | .fbToggle => true
  | .fbIdle => true

/-- The operations that reach the sequencer's own state or the line: `START`, the tick steps, and the symbols and words
that ticks emit (R30, R86). -/
def sequencerOp : Instr → Bool
  | .symOn => true
  | .symOff => true
  | .word _ => true
  | .wordZero => true
  | .start _ _ => true
  | .tickPull => true
  | .tickShift => true
  | .tickStarve => true
  | .encode _ _ => false
  | .enq _ => false
  | .flush => false
  | .ctlBegin => false
  | .ctlSend => false
  | .ctlEndPass => false
  | .ctlToFlush => false
  | .ctlToCool => false
  | .ctlCoolDone => false
  | .fbToggle => false
  | .fbIdle => false

/-- How many words of the current burst have been accepted, by the controller's state (R217). -/
def State.burstPosition (s : State) : Nat :=
  match s.ctl with
  | .idle => 0
  | .transmitting => s.r * s.streamLen + s.j
  | .flushing => s.cfg.repeatCount * s.streamLen + s.cfg.flushWords
  | .cooldown => s.cfg.repeatCount * s.streamLen + s.cfg.flushWords

/-- The words of one burst of this machine (R106): the passes, then `FLUSH_WORDS` zero words. -/
def State.burst (s : State) : List Word :=
  (List.replicate s.cfg.repeatCount s.ws).flatten ++ List.replicate s.cfg.flushWords 0#32

/-- The order law as an invariant (R209): nothing is accepted before `WS` is stored, and the accepted words are whole
bursts and then the beginning of one, as far as the controller's state says. -/
def State.BurstOrder (s : State) : Prop :=
  (s.wsStored = false → s.enqs = []) ∧
    ∃ k, s.enqs = (List.replicate k s.burst).flatten ++ s.burst.take s.burstPosition

/-- The bits inside the sequencer, in the order they come out: the shift register's, then the FIFO's (R80, R166). -/
def State.pending (s : State) : List Bool := s.osrBits ++ unpackWords s.fifo

end Sys2Proof.Machine
end

