-- ==== Sys2Proof/Certificates/Slice0/Obligations.lean ====
section
/-! DEFINITION. The statements for the provers, spec file by spec file. -/

open Sys2Proof Sys2Proof.Machine

/-! ### Encodings (30_encoding.md) -/

/-- Decoding the encoding of a well-formed operation gives it back, every operand at every value (R101, R102,
R110). The form of a line is the model's choice (notes/assumptions/6.md), the spelling of the zero word too (18). -/
def Obligations.DecodeOfEncodeGivesBack : Prop :=
  ∀ i : Instr, i.wellFormed = true → decode (encode i) = some i

/-- A line that decodes is the encoding of what it decodes to: no bit of a line is ignored (R110, R111; the
form of a line is the model's choice, notes/assumptions/6.md). -/
def Obligations.EncodeOfDecodeGivesLine : Prop :=
  ∀ (l : Line) (i : Instr), decode l = some i → encode i = l

/-- One line of each format, written from R101, R102 and R110 in the model's form of a line (notes/assumptions/6.md). -/
def Obligations.SpecLinesDecode : Prop :=
  decode (.sym 1#1) = some .symOn ∧ decode (.word 0x0000000D#32) = some (.word 0x0000000D#32) ∧
    decode (.op 1 [2500, 5]) = some (.start 2500#32 5) ∧ decode (.op 2 [0]) = some .flush ∧
    decode (.op 0 [32, 1, 0, 1, 1]) = some (.encode [true, false, true, true] 32)

/-- R111: selectors 14, 15 (and whatever is above the 4-bit field) are refused by the decoder and by a step
(R111 is marked as the spec's own decision D18; a line above 15 is the model's, notes/assumptions/6.md). -/
def Obligations.ReservedSelectorsAreRefused : Prop :=
  ∀ (sel : Nat) (operands : List Nat), 14 ≤ sel →
    decode (.op sel operands) = none ∧
      ∀ (s : State) (rest : List Line), s.trace = .op sel operands :: rest → step s = .refused .reservedEncoding

/-! ### The encoder (40_encoder.md) -/

/-- R103: the value of word `k`, and its range. -/
def Obligations.EncodedWordIsSumOfBits : Prop :=
  ∀ (width : Nat) (bits : List Bool) (k : Nat), 1 ≤ width → k < ceilDiv bits.length width →
    (packBits width bits)[k]? =
        some (∑ i ∈ Finset.range width, (bits.getD (k * width + i) false).toNat * 2 ^ i) ∧
      ∀ w, (packBits width bits)[k]? = some w → w < 2 ^ width

/-- R133. -/
def Obligations.EncodedLengthIsCeiling : Prop :=
  ∀ (width : Nat) (bits : List Bool), 1 ≤ width →
    (packBits width bits).length = (bits.length + width - 1) / width

/-- R132, both directions. -/
def Obligations.EncodeUnpackRoundTrip : Prop :=
  ∀ width : Nat, 1 ≤ width →
    (∀ bits : List Bool,
      ceilDiv bits.length width * width - bits.length < width ∧
        unpack width (packBits width bits) =
          bits ++ List.replicate (ceilDiv bits.length width * width - bits.length) false) ∧
      ∀ ws : List Nat, (∀ w ∈ ws, w < 2 ^ width) → packBits width (unpack width ws) = ws

/-- R105: the word stream that BOOT stores is the encoder's words at width 32, `ceil(N / 32)` of them, and carries the
whole bit sequence, 0 where there is no such bit; and R134, the domain instance, for any content of the signal. -/
def Obligations.DomainStreamShape : Prop :=
  (∀ bits : List Bool,
    (packWords bits).map BitVec.toNat = packBits 32 bits ∧ (packWords bits).length = (bits.length + 31) / 32 ∧
      ∀ k i, i < 32 → ((packWords bits).getD k 0#32).getLsbD i = bits.getD (32 * k + i) false) ∧
    ∀ bits : List Bool, bits.length = 333 →
      (packWords bits).length = 11 ∧
        (∀ k i, k ≤ 9 → i < 32 → ((packWords bits).getD k 0#32).getLsbD i = bits.getD (32 * k + i) false) ∧
        (∀ i ≤ 12, ((packWords bits).getD 10 0#32).getLsbD i = bits.getD (320 + i) false) ∧
        (∀ i, 13 ≤ i → i ≤ 31 → ((packWords bits).getD 10 0#32).getLsbD i = false) ∧
        ((packWords bits).getD 10 0#32).toNat ≤ 0x00001FFF

/-- R135, which the spec derives from R132: injective at one length, with its inverse; not injective across lengths. -/
def Obligations.EncodeInjectiveAtOneLength : Prop :=
  (∀ width : Nat, 1 ≤ width →
    (∀ a b : List Bool, a.length = b.length → packBits width a = packBits width b → a = b) ∧
      ∀ bits : List Bool, (unpack width (packBits width bits)).take bits.length = bits) ∧
    packBits 32 [true] = packBits 32 [true, false]

/-- R139, which the spec derives from R130 and R104: the last `P` symbols of a pass are low, with `P ≥ 1` exactly when
`N mod W ≠ 0`. -/
def Obligations.PassEndsLowUnlessFull : Prop :=
  ∀ (width : Nat) (bits : List Bool), 1 ≤ width →
    (bits.length % width ≠ 0 →
      1 ≤ width - bits.length % width ∧
        (unpack width (packBits width bits)).drop bits.length =
          List.replicate (width - bits.length % width) false) ∧
      (bits.length % width = 0 → unpack width (packBits width bits) = bits)

/-- `ENCODE` completes for every `W ≥ 1` (R130, R136): it returns the words and changes nothing else, but that BOOT
stores those of its one `ENCODE(BITS, 32)` (R32, R263; that the operation and BOOT's store are one step is
notes/assumptions/4.md); `W = 0` is refused (R140). -/
def Obligations.EncodeCompletes : Prop :=
  ∀ (s : State) (bits : List Bool) (width : Nat), s.fault = none →
    (1 ≤ width → ¬(s.wsStored = false ∧ width = 32 ∧ bits = s.bits) →
      exec (.encode bits width) s = .next { s with encResult := packBits width bits }) ∧
      (s.wsStored = false →
        exec (.encode s.bits 32) s =
          .next { s with encResult := packBits 32 s.bits, ws := packWords s.bits, wsStored := true }) ∧
      exec (.encode bits 0) s = .refused .widthZero

/-! ### The sequencer (41_sequencer.md) -/

/-- R150: `START` with a good pin and a realizable frequency completes (what is good and realizable is the spec's
decision, D8 and D9; so is the line's level, D4). -/
def Obligations.StartCompletes : Prop :=
  ∀ (s : State) (f : BitVec 32) (p : Nat), s.fault = none → s.started = false →
    p < s.cfg.pinCount → p ∈ s.cfg.pinsAvailable →
    1 ≤ f.toNat → s.cfg.fSys % f.toNat = 0 → 1 ≤ s.cfg.fSys / f.toNat → s.cfg.fSys / f.toNat ≤ s.cfg.divMax →
    exec (.start f p) s = .next { s with cfgFreq := f, cfgPin := p, started := true, line := .low }

/-- R232, R233, R243 (1): `START` takes `ConfigError` with all the causes that apply and changes nothing else (the
spec's decisions D8, D9 and D11). The exception is a next state in this model (notes/assumptions/10.md). -/
def Obligations.StartTakesConfigError : Prop :=
  ∀ (s : State) (f : BitVec 32) (p : Nat), s.fault = none → s.started = false →
    let badPin := ¬(p < s.cfg.pinCount ∧ p ∈ s.cfg.pinsAvailable)
    let badFreq := ¬(1 ≤ f.toNat ∧ s.cfg.fSys % f.toNat = 0 ∧ 1 ≤ s.cfg.fSys / f.toNat ∧
      s.cfg.fSys / f.toNat ≤ s.cfg.divMax)
    badPin ∨ badFreq →
      ∃ c : Causes, (c.pinInvalid = true ↔ badPin) ∧ (c.freqUnrealizable = true ↔ badFreq) ∧
        exec (.start f p) s = .next { s with fault := some c }

/-- R240: once a fault is recorded no operation takes a step, and the machine is reported as faulted (the spec's
decision D28; how the model reports it is notes/assumptions/10.md). -/
def Obligations.NothingStepsAfterFault : Prop :=
  ∀ (s : State) (c : Causes), s.fault = some c →
    (∀ i : Instr, exec i s = .refused .afterFault) ∧ (∀ t : State, step s ≠ .next t) ∧
      (s.trace = [] → step s = .fault (.configError c))

/-- R162: the refused forms, and the ticks that do not exist before `START` (R167): the spec's decisions D12 and D7. -/
def Obligations.MisuseIsRefused : Prop :=
  ∀ (s : State) (w : Word) (f : BitVec 32) (p : Nat),
    (s.fault = none → s.started = false →
      exec (.enq w) s = .refused .notStarted ∧ exec .flush s = .refused .notStarted ∧
        exec .tickPull s = .refused .notStarted ∧ exec .tickShift s = .refused .notStarted ∧
        exec .tickStarve s = .refused .notStarted) ∧
      (s.fault = none → s.started = true → exec (.start f p) s = .refused .alreadyStarted) ∧
      (s.fault ≠ none → ∀ i : Instr, exec i s = .refused .afterFault)

/-- R152: refused before `START` and after a fault (decision D12); accepted at the tail below the capacity; held, with nothing changed
(R15), at it. `FLUSH` is `ENQ 0` (R154). A hold is an unchanged next state in this model (notes/assumptions/3.md). -/
def Obligations.EnqAppendsOrHolds : Prop :=
  ∀ (s : State) (w : Word),
    (s.started = false ∨ s.fault ≠ none → ∃ a b, exec (.enq w) s = .refused a ∧ exec .flush s = .refused b) ∧
      (s.fault = none → s.started = true → s.fifo.length < s.cfg.fifoDepth →
        exec (.enq w) s = .next { s with fifo := s.fifo ++ [w], enqs := s.enqs ++ [w] } ∧
          exec .flush s = .next { s with fifo := s.fifo ++ [0#32], enqs := s.enqs ++ [0#32] }) ∧
      (s.fault = none → s.started = true → s.fifo.length = s.cfg.fifoDepth →
        exec (.enq w) s = .next s ∧ exec .flush s = .next s)

/-- R153: the FIFO stops being full only by a step that pulls its head, with `CNT` at `W` or above (above it only
outside R52, notes/assumptions/13.md): one tick, or the 32 ticks of a word, which are one step in this model
(notes/assumptions/5.md). -/
def Obligations.OnlyPullEndsHold : Prop :=
  ∀ (s t : State) (i : Instr), exec i s = .next t → s.fifoFull = true → t.fifoFull = false →
    s.cnt ≥ W ∧ (∃ rest w, s.fifo = w :: rest ∧ t.fifo = rest) ∧ (t = tick s ∨ t = ticksN W s)

/-- R163, which the spec derives from R153 and R155 to R157: a held `ENQ` is released by the `(W - CNT + 1)`-th tick,
at most `W` ticks from now, and not before. -/
def Obligations.HoldEndsWithinOneWord : Prop :=
  ∀ s : State, s.Inv → s.started = true → s.fifo.length = s.cfg.fifoDepth →
    W - s.cnt + 1 ≤ W ∧ (∀ n ≤ W - s.cnt, (ticksN n s).fifo = s.fifo) ∧
      (ticksN (W - s.cnt + 1) s).fifo = s.fifo.tail ∧
      ∀ w : Word, ∃ t, exec (.enq w) (ticksN (W - s.cnt + 1) s) = .next t ∧ t.fifo = s.fifo.tail ++ [w]

/-- R155: at every tick exactly one of the three steps is taken, chosen by `CNT` and the FIFO alone (the spec marks
the split as derived); the line it leaves; and what all three have in common. That the other two are refused is the
model's choice (notes/assumptions/11.md). -/
def Obligations.ExactlyOneTickStep : Prop :=
  ∀ s : State, s.fault = none → s.started = true → s.cnt ≤ W →
    (s.cnt < W →
      exec .tickShift s = .next (tick s) ∧ exec .tickPull s = .refused .notEnabled ∧
        exec .tickStarve s = .refused .notEnabled ∧ (tick s).line = Level.ofBit (s.osr.getLsbD 0)) ∧
      (s.cnt = W → ∀ w rest, s.fifo = w :: rest →
        exec .tickPull s = .next (tick s) ∧ exec .tickShift s = .refused .notEnabled ∧
          exec .tickStarve s = .refused .notEnabled ∧ (tick s).line = Level.ofBit (w.getLsbD 0)) ∧
      (s.cnt = W → s.fifo = [] →
        exec .tickStarve s = .next (tick s) ∧ exec .tickShift s = .refused .notEnabled ∧
          exec .tickPull s = .refused .notEnabled ∧
          (s.cfg.starvePolicy = .holdLast → (tick s).line = s.line)) ∧
      (tick s).ticks = s.ticks + 1 ∧ (tick s).wave = s.wave ++ [(tick s).line] ∧
      (tick s).cool = (if s.ctl = .cooldown then s.cool + 1 else s.cool) ∧
      (tick s).fbwait = (if s.ctl = .transmitting then s.fbwait + 1 else s.fbwait)

/-- R156 (that the pull costs no tick of its own is the spec's decision D5). -/
def Obligations.TickPullCompletes : Prop :=
  ∀ (s : State) (w : Word) (rest : List Word), s.fault = none → s.started = true → s.cnt = W → s.fifo = w :: rest →
    exec .tickPull s = .next
      { s with
        fifo := rest, line := Level.ofBit (w.getLsbD 0), osr := w >>> 1, cnt := 1, emit := s.emit ++ [w.getLsbD 0]
        ticks := s.ticks + 1, wave := s.wave ++ [Level.ofBit (w.getLsbD 0)]
        cool := if s.ctl = .cooldown then s.cool + 1 else s.cool
        fbwait := if s.ctl = .transmitting then s.fbwait + 1 else s.fbwait }

/-- R157. -/
def Obligations.TickShiftCompletes : Prop :=
  ∀ s : State, s.fault = none → s.started = true → 1 ≤ s.cnt → s.cnt < W →
    exec .tickShift s = .next
      { s with
        line := Level.ofBit (s.osr.getLsbD 0), osr := s.osr >>> 1, cnt := s.cnt + 1
        emit := s.emit ++ [s.osr.getLsbD 0]
        ticks := s.ticks + 1, wave := s.wave ++ [Level.ofBit (s.osr.getLsbD 0)]
        cool := if s.ctl = .cooldown then s.cool + 1 else s.cool
        fbwait := if s.ctl = .transmitting then s.fbwait + 1 else s.fbwait }

/-- R158, under both policies (the spec's decision D3). -/
def Obligations.TickStarveCompletes : Prop :=
  ∀ s : State, s.fault = none → s.started = true → s.cnt = W → s.fifo = [] →
    ∀ l : Level, (s.cfg.starvePolicy = .holdLast → l = s.line) → (s.cfg.starvePolicy = .idleLow → l = .low) →
      exec .tickStarve s = .next
        { s with
          line := l, ticks := s.ticks + 1, wave := s.wave ++ [l]
          cool := if s.ctl = .cooldown then s.cool + 1 else s.cool
          fbwait := if s.ctl = .transmitting then s.fbwait + 1 else s.fbwait }

/-- R80, R164, R189, which the spec derives from R152 and R155 to R158: what is inside the sequencer comes out, one
symbol per tick, in order, with no gap, on the line and in `EMIT` alike; then, with nothing left, the line is held. -/
def Obligations.SequencerEmitsWhatIsPending : Prop :=
  ∀ s : State, s.Inv →
    (∀ n ≤ s.pending.length,
      (ticksN n s).emit = s.emit ++ s.pending.take n ∧
        (ticksN n s).wave = s.wave ++ (s.pending.take n).map Level.ofBit ∧
        (ticksN n s).pending = s.pending.drop n ∧ (ticksN n s).ticks = s.ticks + n) ∧
      (s.pending = [] → ∀ n,
        (ticksN n s).emit = s.emit ∧
          (ticksN n s).wave = s.wave ++ List.replicate n (starvedLevel s.cfg.starvePolicy s.line))

/-- R166, which the spec derives from R52 and R164: how many bits are in flight, and the tick at which each bit of a
newly accepted word is emitted; none of the ticks up to it starves. -/
def Obligations.InFlightBoundAndLatency : Prop :=
  ∀ s : State, s.Inv →
    (unpackWords s.enqs).length - s.emit.length = W * s.fifo.length + (W - s.cnt) ∧
      W * s.fifo.length + (W - s.cnt) ≤ W * s.cfg.fifoDepth + (W - 1) ∧
      ∀ (w : Word) (t : State), s.started = true → s.fifo.length < s.cfg.fifoDepth → exec (.enq w) s = .next t →
        ∀ i < W,
          W - s.cnt + s.fifo.length * W + i + 1 ≤ W * s.cfg.fifoDepth + (W - 1) ∧
            (ticksN (W - s.cnt + s.fifo.length * W + i) t).emit.length =
              s.emit.length + (W - s.cnt + s.fifo.length * W + i) ∧
            (ticksN (W - s.cnt + s.fifo.length * W + i + 1) t).emit =
              (ticksN (W - s.cnt + s.fifo.length * W + i) t).emit ++ [w.getLsbD i]

/-- R165, R265: no operation changes the configuration or `BITS`, nor, once written, `cfg_freq`, `cfg_pin` and `WS`;
and a started sequencer is never stopped (R161). -/
def Obligations.ConfigurationNeverChanges : Prop :=
  ∀ (i : Instr) (s t : State), exec i s = .next t →
    t.cfg = s.cfg ∧ t.bits = s.bits ∧
      (s.started = true → t.started = true ∧ t.cfgFreq = s.cfgFreq ∧ t.cfgPin = s.cfgPin) ∧
      (s.wsStored = true → t.wsStored = true ∧ t.ws = s.ws)

/-! ### The output stage (42_ook_output_gpio.md) -/

/-- R181: a symbol is emitted at the tick that takes it from the word, from the shift register or from the FIFO's
head; where another symbol or none comes next there is no such event. That the operation is the tick itself is the
model's reading (notes/assumptions/5.md). -/
def Obligations.SymbolIsEmittedAtItsTick : Prop :=
  ∀ (s : State) (b : Bool) (i : Instr), (i = .symOn ∧ b = true) ∨ (i = .symOff ∧ b = false) →
    s.fault = none → s.started = true →
    (s.cnt < W → s.osr.getLsbD 0 = b →
      exec i s = .next
        { s with
          line := Level.ofBit b, osr := s.osr >>> 1, cnt := s.cnt + 1, emit := s.emit ++ [b]
          ticks := s.ticks + 1, wave := s.wave ++ [Level.ofBit b]
          cool := if s.ctl = .cooldown then s.cool + 1 else s.cool
          fbwait := if s.ctl = .transmitting then s.fbwait + 1 else s.fbwait }) ∧
      (s.cnt = W → ∀ w rest, s.fifo = w :: rest → w.getLsbD 0 = b →
        exec i s = .next
          { s with
            fifo := rest, line := Level.ofBit b, osr := w >>> 1, cnt := 1, emit := s.emit ++ [b]
            ticks := s.ticks + 1, wave := s.wave ++ [Level.ofBit b]
            cool := if s.ctl = .cooldown then s.cool + 1 else s.cool
            fbwait := if s.ctl = .transmitting then s.fbwait + 1 else s.fbwait }) ∧
      (s.cnt < W → s.osr.getLsbD 0 ≠ b → exec i s = .refused .symbolNotNext) ∧
      (s.cnt = W → ∀ w rest, s.fifo = w :: rest → w.getLsbD 0 ≠ b → exec i s = .refused .symbolNotNext) ∧
      (s.cnt = W → s.fifo = [] → exec i s = .refused .symbolNotNext)

/-- R114, R164: a word occupies 32 consecutive ticks, its position 0 first; and `WORD.ZERO` likewise, 32 low symbols.
Where another word or none comes next, or one is in progress, there is no such event. That the operation is the 32
ticks is the model's reading (notes/assumptions/5.md). -/
def Obligations.WordOccupiesItsTicks : Prop :=
  ∀ (s : State) (w : Word) (i : Instr), i = .word w ∨ (i = .wordZero ∧ w = 0#32) →
    s.fault = none → s.started = true →
    (∀ rest : List Word, s.cnt = W → s.fifo = w :: rest →
      exec i s = .next
        { s with
          fifo := rest, osr := 0#32, cnt := W, line := Level.ofBit (w.getLsbD 31)
          emit := s.emit ++ (List.range 32).map w.getLsbD
          wave := s.wave ++ (List.range 32).map fun k => Level.ofBit (w.getLsbD k)
          ticks := s.ticks + 32
          cool := if s.ctl = .cooldown then s.cool + 32 else s.cool
          fbwait := if s.ctl = .transmitting then s.fbwait + 32 else s.fbwait }) ∧
      (s.cnt < W → exec i s = .refused .wordNotNext) ∧
      (s.fifo = [] → exec i s = .refused .wordNotNext) ∧
      (∀ (v : Word) (rest : List Word), s.fifo = v :: rest → v ≠ w → exec i s = .refused .wordNotNext)

/-- R185, which the spec derives from R150 and R155 to R158: the transition table of the line, for every operation (the
rows of symbols and words are the model's reading, notes/assumptions/5.md). -/
def Obligations.LineTransitionTable : Prop :=
  ∀ (i : Instr) (s t : State), exec i s = .next t →
    match i with
    | .start _ _ =>
      (t.started = true ∧ t.fault = none ∧ t.line = .low) ∨
        (t.started = false ∧ t.fault ≠ none ∧ t.line = s.line)
    | .tickPull => ∃ w rest, s.fifo = w :: rest ∧ t.line = if w.getLsbD 0 then .high else .low
    | .tickShift => t.line = if s.osr.getLsbD 0 then .high else .low
    | .tickStarve => t.line = match s.cfg.starvePolicy with | .holdLast => s.line | .idleLow => .low
    | .symOn => t.line = .high
    | .symOff => t.line = .low
    | .word w => t.line = if w.getLsbD 31 then .high else .low
    | .wordZero => t.line = .low
    | _ => t.line = s.line

/-- R186, which the spec derives from R154 and R156 to R158: from the tick that pulls the flush word on, the line is
low at its 32 ticks and at every tick after them until one emits a 1, under either policy; and so it is at the end of
every interleaving after that tick in which only 0 bits have been emitted. -/
def Obligations.FlushReturnsLineToLow : Prop :=
  ∀ (s : State) (rest : List Word), s.cnt = W → s.fifo = 0#32 :: rest →
    (∀ n, 1 ≤ n →
      (n ≤ 32 → (ticksN n s).line = .low) ∧
        ((∀ b ∈ (unpackWords rest).take (n - 32), b = false) → (ticksN n s).line = .low)) ∧
      ∀ u : State, ReachableFrom (fun _ => true) (tick s) u →
        (tick s).emit <+: u.emit ∧ ((∀ b ∈ u.emit.drop (tick s).emit.length, b = false) → u.line = .low)

/-- R186, R268, which the spec derives from R166 and R205: once a flush word is accepted, the line is low at the
latest from the tick `W × FIFO_DEPTH + W - 1` on, if no further word is enqueued, under either policy. -/
def Obligations.LineIsLowAfterFlush : Prop :=
  ∀ (s t : State), s.Inv → s.fifo.length < s.cfg.fifoDepth → exec .flush s = .next t →
    ∀ n, W * s.cfg.fifoDepth + (W - 1) ≤ n → (ticksN n t).line = .low

/-- R187, the spec's decision D3: the two policies at a starved tick; they agree after a 0. -/
def Obligations.StarvePoliciesAgreeAfterLow : Prop :=
  ∀ (s : State) (p : StarvePolicy), s.fault = none → s.started = true → s.cnt = W → s.fifo = [] →
    ∃ t, exec .tickStarve { s with cfg := { s.cfg with starvePolicy := p } } = .next t ∧
      (p = .holdLast → t.line = s.line) ∧ (p = .idleLow → t.line = .low) ∧ (s.line = .low → t.line = .low)

/-- R160: no step of the controller, of BOOT's encoder or of FeedbackSink touches the sequencer or the line, but for one
word at the FIFO's tail. -/
def Obligations.OtherAgentsLeaveSequencerAlone : Prop :=
  ∀ (i : Instr) (s t : State), sequencerOp i = false → exec i s = .next t →
    t.line = s.line ∧ t.osr = s.osr ∧ t.cnt = s.cnt ∧ t.emit = s.emit ∧ t.wave = s.wave ∧ t.ticks = s.ticks ∧
      t.started = s.started ∧ t.cfgFreq = s.cfgFreq ∧ t.cfgPin = s.cfgPin ∧ t.fault = s.fault ∧
      ((t.fifo = s.fifo ∧ t.enqs = s.enqs) ∨ ∃ w, t.fifo = s.fifo ++ [w] ∧ t.enqs = s.enqs ++ [w])

/-- R160: what the ticks do is a function of the sequencer's own state: two machines that differ in anything else are
the same on the line for ever. -/
def Obligations.TicksReadSequencerOnly : Prop :=
  ∀ (a b : State) (n : Nat),
    a.cfg.starvePolicy = b.cfg.starvePolicy → a.fifo = b.fifo → a.osr = b.osr → a.cnt = b.cnt → a.line = b.line →
    a.emit = b.emit → a.wave = b.wave →
    (ticksN n a).fifo = (ticksN n b).fifo ∧ (ticksN n a).osr = (ticksN n b).osr ∧
      (ticksN n a).cnt = (ticksN n b).cnt ∧ (ticksN n a).line = (ticksN n b).line ∧
      (ticksN n a).emit = (ticksN n b).emit ∧ (ticksN n a).wave = (ticksN n b).wave

/-- R75 (decision D17) and R87, which the spec derives from R75 and R152 to R158: a pull and a push in either order
give the same state where the FIFO is neither empty nor full; at the two extremes they differ as R87 (a) and (b) say
(a hold at the full FIFO is an unchanged next state in this model, notes/assumptions/3.md). -/
def Obligations.PullAndPushInEitherOrder : Prop :=
  ∀ (s : State) (w : Word), s.fault = none → s.started = true → s.cnt = W →
    (∀ h rest, s.fifo = h :: rest → s.fifo.length < s.cfg.fifoDepth →
      ∃ a, exec (.enq w) s = .next a ∧ exec (.enq w) (tick s) = .next (tick a)) ∧
      (∀ h rest, s.fifo = h :: rest → s.fifo.length = s.cfg.fifoDepth →
        exec (.enq w) s = .next s ∧
          ∃ b, exec (.enq w) (tick s) = .next b ∧ b.enqs = s.enqs ++ [w] ∧ b.fifo = rest ++ [w]) ∧
      (s.fifo = [] → 1 ≤ s.cfg.fifoDepth →
        ∃ a b, exec (.enq w) s = .next a ∧ exec (.enq w) (tick s) = .next b ∧
          (tick a).emit = s.emit ++ [w.getLsbD 0] ∧ (tick b).emit = s.emit ++ [w.getLsbD 0] ∧
          (tick a).wave = s.wave ++ [Level.ofBit (w.getLsbD 0)] ∧
          (tick b).wave = s.wave ++ [starvedLevel s.cfg.starvePolicy s.line, Level.ofBit (w.getLsbD 0)])

/-! ### The controller (43_controller.md) -/

/-- R201 (decision D13); `REPEAT = 0` is refused (R109, decision D10), and that this operation is where is the model's
choice (notes/assumptions/21.md). -/
def Obligations.CtlBeginCompletes : Prop :=
  ∀ s : State, s.fault = none → s.started = true → s.ctl = .idle → s.wsStored = true →
    (1 ≤ s.cfg.repeatCount →
      exec .ctlBegin s = .next { s with ctl := .transmitting, r := 0, j := 0, fbwait := s.cfg.feedbackTicks }) ∧
      (s.cfg.repeatCount = 0 → exec .ctlBegin s = .refused .repeatZero)

/-- R202: the next word of the pass is enqueued; while the feedback delay or a full FIFO holds it, nothing changes
(a hold is an unchanged next state in this model, notes/assumptions/3.md). -/
def Obligations.CtlSendCompletes : Prop :=
  ∀ (s : State) (w : Word), s.fault = none → s.started = true → s.ctl = .transmitting → s.r < s.cfg.repeatCount →
    s.ws[s.j]? = some w →
    (s.cfg.feedbackTicks ≤ s.fbwait → s.fifo.length < s.cfg.fifoDepth →
      exec .ctlSend s = .next { s with fifo := s.fifo ++ [w], enqs := s.enqs ++ [w], j := s.j + 1 }) ∧
      (s.fbwait < s.cfg.feedbackTicks ∨ s.fifo.length = s.cfg.fifoDepth → exec .ctlSend s = .next s)

/-- R203; the call is in the record `fb` that the model keeps of the calls (notes/assumptions/14.md). -/
def Obligations.CtlEndPassCompletes : Prop :=
  ∀ s : State, s.fault = none → s.started = true → s.ctl = .transmitting → s.r < s.cfg.repeatCount →
    s.j = s.ws.length →
    exec .ctlEndPass s = .next { s with fb := s.fb ++ [.toggle], r := s.r + 1, j := 0, fbwait := 0 }

/-- R204: the flush word is enqueued whatever `fbwait` is; a full FIFO holds it with the state still `Transmitting`
(decision D14; a hold is an unchanged next state in this model, notes/assumptions/3.md). -/
def Obligations.CtlToFlushCompletes : Prop :=
  ∀ s : State, s.fault = none → s.started = true → s.ctl = .transmitting → s.r = s.cfg.repeatCount →
    (s.fifo.length < s.cfg.fifoDepth →
      exec .ctlToFlush s =
        .next { s with fifo := s.fifo ++ [0#32], enqs := s.enqs ++ [0#32], ctl := .flushing }) ∧
      (s.fifo.length = s.cfg.fifoDepth → exec .ctlToFlush s = .next s)

/-- R205; the call is in the record `fb` that the model keeps of the calls (notes/assumptions/14.md). -/
def Obligations.CtlToCoolCompletes : Prop :=
  ∀ s : State, s.fault = none → s.started = true → s.ctl = .flushing →
    exec .ctlToCool s = .next { s with fb := s.fb ++ [.idle], cool := 0, ctl := .cooldown }

/-- R206: the cooldown ends at any tick count from `COOLDOWN_TICKS` on (decision D15); before it, nothing changes (a
hold is an unchanged next state in this model, notes/assumptions/3.md). -/
def Obligations.CtlCoolDoneCompletes : Prop :=
  ∀ s : State, s.fault = none → s.started = true → s.ctl = .cooldown →
    (s.cfg.cooldownTicks ≤ s.cool → exec .ctlCoolDone s = .next { s with ctl := .idle, r := 0, j := 0 }) ∧
      (s.cool < s.cfg.cooldownTicks → exec .ctlCoolDone s = .next s)

/-- R212, R213: the two calls are outputs; they change no state of the core (decision D23); `fb` records them
(notes/assumptions/14.md). Before `START` they are refused, as R77 and R217, which the spec derives, leave them no step.
That a bare call completes in every started state, whatever the controller's, is the model's choice
(notes/assumptions/20.md). -/
def Obligations.FeedbackCallsComplete : Prop :=
  ∀ s : State, s.fault = none →
    (s.started = true →
      exec .fbToggle s = .next { s with fb := s.fb ++ [.toggle] } ∧
        exec .fbIdle s = .next { s with fb := s.fb ++ [.idle] }) ∧
      (s.started = false → exec .fbToggle s = .refused .notStarted ∧ exec .fbIdle s = .refused .notStarted)

/-- R217, which the spec derives from R201 to R206: in every state of the invariant exactly one transition of the
controller is the next one, `nextCtl`'s, and no other is taken; there is none only in `Idle` before boot is over or
after a fault. A held transition is taken as an unchanged next state (notes/assumptions/3.md), and one that the table
does not select is refused (notes/assumptions/11.md): both are the model's. -/
def Obligations.ControllerTableIsExact : Prop :=
  ∀ s : State, s.Inv →
    (nextCtl s = none ↔ s.ctl = .idle ∧ ¬(s.started = true ∧ s.wsStored = true)) ∧
      ∀ i ∈ [Instr.ctlBegin, .ctlSend, .ctlEndPass, .ctlToFlush, .ctlToCool, .ctlCoolDone],
        (nextCtl s = some i ↔ ∃ t, exec i s = .next t)

/-- R209, which the spec derives from R201 to R206: with the controller as the only producer, the accepted words are
whole bursts and then the beginning of one, as far as the controller's state says. Every operation keeps that, it holds
at power-on, and so in every history, in which `EMIT` is then a prefix of the unpacked bursts. -/
def Obligations.AcceptedWordsAreBursts : Prop :=
  (∀ (i : Instr) (s t : State), controllerOnly i = true → s.Inv → s.BurstOrder → exec i s = .next t → t.BurstOrder) ∧
    (∀ (c : Config) (bits : List Bool), (State.powerOn c bits).BurstOrder) ∧
      ∀ (c : Config) (bits : List Bool) (s : State), c.Valid →
        ReachableFrom controllerOnly (State.powerOn c bits) s →
        ∃ k, s.enqs = (List.replicate k s.burst).flatten ++ s.burst.take s.burstPosition ∧
          s.emit <+: unpackWords (List.replicate (k + 1) s.burst).flatten

/-- R208: from a `CTL.BEGIN` to the next `CTL.TOCOOL`, under any interleaving, exactly one `BURST` is accepted, so
`REPEAT × L + 1` words, with `REPEAT` `FB.TOGGLE` calls and one `FB.IDLE` in
the record that the model keeps of the calls (notes/assumptions/14.md). -/
def Obligations.OneBurstIsRepeatTimesLengthPlusOne : Prop :=
  ∀ s t u v : State, s.Inv → exec .ctlBegin s = .next t →
    ReachableFrom (fun i => controllerOnly i && decide (i ≠ .ctlToCool ∧ i ≠ .fbToggle ∧ i ≠ .fbIdle)) t u →
    exec .ctlToCool u = .next v →
    v.enqs = s.enqs ++ s.burst ∧ v.enqs.length = s.enqs.length + (s.cfg.repeatCount * s.ws.length + 1) ∧
      v.fb = s.fb ++ List.replicate s.cfg.repeatCount .toggle ++ [.idle]

/-- R113, R106: the pseudo-operation `BURST`, where the FIFO has room for it: its words and its calls, in order, and
nothing else. The calls stand in it as bare operations: that they complete in every started state, with the controller in
`Idle` too, is the model's choice (notes/assumptions/20.md), and `fb` is the record that the model keeps of them
(notes/assumptions/14.md). -/
def Obligations.BurstPseudoOperation : Prop :=
  ∀ (s : State) (n : Nat) (ws : List Word), s.fault = none → s.started = true →
    s.fifo.length + (n * ws.length + 1) ≤ s.cfg.fifoDepth →
    runOps (burstOps n ws) s = .next
      { s with
        fifo := s.fifo ++ burstWords n ws, enqs := s.enqs ++ burstWords n ws
        fb := s.fb ++ List.replicate n .toggle ++ [.idle] }

/-- R206 (decision D15): at least `COOLDOWN_TICKS` ticks pass between `CTL.TOCOOL` and the next `CTL.COOLDONE` that
takes effect. -/
def Obligations.CooldownIsLowerBound : Prop :=
  ∀ s t u v : State, exec .ctlToCool s = .next t →
    ReachableFrom (fun i => decide (i ≠ .ctlToCool)) t u → u.ctl = .cooldown →
    exec .ctlCoolDone u = .next v → v.ctl = .idle → t.ticks + s.cfg.cooldownTicks ≤ u.ticks

/-- R216 (decision D16): at least `FEEDBACK_TICKS` ticks pass between a `CTL.ENDPASS` and the next word that a
`CTL.SEND` of the same burst gets accepted. -/
def Obligations.FeedbackDelayIsLowerBound : Prop :=
  ∀ s t u v : State, exec .ctlEndPass s = .next t →
    ReachableFrom (fun i => decide (i ≠ .ctlBegin)) t u →
    exec .ctlSend u = .next v → v.enqs ≠ u.enqs → t.ticks + s.cfg.feedbackTicks ≤ u.ticks

/-! ### The whole machine (10_state.md, 70_reset_and_hazards.md) -/

/-- The invariant is kept by every operation: R52, which the spec derives, and what its induction needs, which is the
model's (notes/assumptions/9.md). -/
def Obligations.ExecKeepsInvariant : Prop :=
  ∀ (i : Instr) (s t : State), s.Inv → exec i s = .next t → t.Inv

/-- Every step of the whole machine keeps the invariant (R52 and notes/assumptions/9.md), whatever the trace holds and
whatever the open schedule says. -/
def Obligations.StepKeepsInvariant : Prop :=
  ∀ s t : State, s.Inv → step s = .next t → t.Inv

/-- The invariant holds at power-on of every legal configuration, and the hardware's own is legal (R261 and
notes/assumptions/2.md and 8.md). -/
def Obligations.PowerOnHasInvariant : Prop :=
  (∀ (c : Config) (bits : List Bool), c.Valid → (State.powerOn c bits).Inv) ∧ Config.hw.Valid ∧ State.reset.Inv

/-- R52, which the spec derives from R150 to R158 and R201 to R206: every state that the rules reach from power-on,
under every interleaving, satisfies all eight clauses. -/
def Obligations.ReachableStatesSatisfyR52 : Prop :=
  ∀ (c : Config) (bits : List Bool) (s : State), c.Valid → Reachable c bits s →
    (0 ≤ s.fifo.length ∧ s.fifo.length ≤ s.cfg.fifoDepth) ∧
      (1 ≤ s.cnt ∧ s.cnt ≤ W ∧ s.osr.toNat < 2 ^ (W - s.cnt)) ∧
      (s.started = false → s.fifo = [] ∧ s.cnt = W ∧ s.line = .z ∧ s.ticks = 0 ∧ s.enqs = []) ∧
      (s.started = true → (s.line = .low ∨ s.line = .high) ∧ s.fault = none) ∧
      (s.fault ≠ none → s.started = false ∧ s.ctl = .idle) ∧
      (s.r ≤ s.cfg.repeatCount ∧ s.j ≤ s.ws.length ∧ (s.ctl ≠ .transmitting → s.j = 0) ∧ (s.ctl = .idle → s.r = 0)) ∧
      (s.wave.length = s.ticks ∧ s.emit.length ≤ s.ticks) ∧
      s.emit ++ s.osrBits ++ unpackWords s.fifo = unpackWords s.enqs

/-- A step with a trace runs the decoded first line, or, while that line's operation is held, a tick: the
model's way to run a program (notes/assumptions/1.md and 3.md). Which operations hold (R15, R84): those that are
answered with the state unchanged, but for an `ENCODE`, which is done when its answer is the one it gave before; so they
are an `ENQ` or `FLUSH` at a full FIFO (R153) and the waits of R202, R204 and R206. -/
def Obligations.StepRunsDecodedLine : Prop :=
  (∀ (s : State) (l : Line) (rest : List Line) (i : Instr), s.trace = l :: rest → decode l = some i →
    (holds i s = false → step s = exec i { s with trace := rest }) ∧
      (holds i s = true → exec i s = .next s ∧ step s = exec (nextTick s) s)) ∧
    ∀ (i : Instr) (s : State),
      (holds i s = true ↔ (∀ b w, i ≠ .encode b w) ∧ exec i s = .next s) ∧
        (holds i s = true ↔ s.fault = none ∧ s.started = true ∧
          (((∃ w, i = .enq w) ∨ i = .flush) ∧ s.cfg.fifoDepth ≤ s.fifo.length ∨
            i = .ctlSend ∧ s.ctl = .transmitting ∧ s.r < s.cfg.repeatCount ∧ s.j < s.ws.length ∧
              (s.fbwait < s.cfg.feedbackTicks ∨ s.cfg.fifoDepth ≤ s.fifo.length) ∨
            i = .ctlToFlush ∧ s.ctl = .transmitting ∧ s.r = s.cfg.repeatCount ∧ s.cfg.fifoDepth ≤ s.fifo.length ∨
            i = .ctlCoolDone ∧ s.ctl = .cooldown ∧ s.cool < s.cfg.cooldownTicks))

/-- Placing a table row's bits with `withFetchWord` makes the very next step run the decoded operation (the model's
choice, notes/assumptions/1.md and 6.md). -/
def Obligations.StepRunsFetchWord : Prop :=
  ∀ (s : State) (nbits w : Nat) (i : Instr), decodeTableWord nbits w = some i → holds i s = false →
    step (s.withFetchWord nbits w) = exec i s

/-- R7, R49, R217: a step with an empty trace and no fault: BOOT's next operation until the sequencer is started; then
the sequencer's tick, or else BOOT's or the controller's turn, as the open schedule says. And what the schedule's
fairness (R13, R249, D29; notes/assumptions/7.md) gives a started machine that runs freely: it never stops, it ticks for
ever (R150), BOOT finishes, and the controller stays in no state for ever (R207, R210). -/
def Obligations.FreeRunningStep : Prop :=
  (∀ s : State, s.trace = [] → s.fault = none →
    let s' := { s with sched := s.sched + 1 }
    (s.started = false → s.wsStored = false → step s = exec (.encode s.bits s.cfg.wordWidth) s') ∧
      (s.started = false → s.wsStored = true → step s = exec (.start s.cfg.freqHz s.cfg.outPin) s') ∧
      (s.started = true → s.wsStored = false →
        step s = match Config.openSchedule s.sched with
          | .seq => exec (nextTick s) s'
          | .ctl => exec (.encode s.bits s.cfg.wordWidth) s') ∧
      (s.started = true → s.wsStored = true →
        step s = match Config.openSchedule s.sched, nextCtl s with
          | .seq, _ => exec (nextTick s) s'
          | .ctl, none => .next s'
          | .ctl, some i => if holds i s then .next s' else exec i s')) ∧
    ∀ s : State, s.Inv → s.trace = [] → s.started = true →
      (∀ n, ∃ t, runSteps n s = .next t) ∧
        (∀ k, ∃ n t, runSteps n s = .next t ∧ s.ticks + k ≤ t.ticks) ∧
        (∃ n t, runSteps n s = .next t ∧ t.wsStored = true) ∧
        (s.wsStored = true → ∃ n t, runSteps n s = .next t ∧ (t.ctl, t.r, t.j) ≠ (s.ctl, s.r, s.j))

/-- R77, which the spec derives: from power-on the only operations that are not refused are BOOT's, `ENCODE` and `START`.
R262 (decision D13): boot from power-on, with nothing placed: the word stream is stored, then the sequencer
starts, or the `ConfigError` is recorded and every later step reports it; then the controller's `CTL.BEGIN` is the
next one. -/
def Obligations.BootSequence : Prop :=
  (∀ (c : Config) (bits : List Bool) (i : Instr), (∀ b w, i ≠ .encode b w) → (∀ f p, i ≠ .start f p) →
    exec i (State.powerOn c bits) = .refused .notStarted) ∧
    ∀ (c : Config) (bits : List Bool), c.Valid → c.pinOk c.outPin = true →
      ∃ t u, step (State.powerOn c bits) = .next t ∧ t.wsStored = true ∧ t.ws = packWords bits ∧ t.started = false ∧
        step t = .next u ∧ u.started = true ∧ u.cfgFreq = c.freqHz ∧ u.cfgPin = c.outPin ∧ u.line = .low ∧
        u.ws = packWords bits ∧ (bits.length = c.signalLength → u.streamLen = c.streamLength) ∧ u.enqs = [] ∧
        nextCtl u = some .ctlBegin

/-- R262 step 4 (decision D28): with a bad pin boot stops for ever at the recorded fault. -/
def Obligations.BootStopsAtConfigError : Prop :=
  ∀ (c : Config) (bits : List Bool), c.Valid → c.pinOk c.outPin = false →
    ∃ t u, step (State.powerOn c bits) = .next t ∧ step t = .next u ∧ u.started = false ∧ u.line = .z ∧
      step u = .fault (.configError ⟨true, false⟩)

/-- R51: the reset values that the spec's table gives (`WS`, `cfg_freq` and `cfg_pin` are unspecified there); but for
the controller's state and `BITS` they are the spec's decisions D4, D7 and D27. R8, R9 and R48: the values of the
configuration that are not open, `L` (CR5) among them; of these `STARVE_POLICY` and `IDLE_LEVEL` are decided (D3,
notes/assumptions/12.md; D4). -/
def Obligations.ResetValues : Prop :=
  State.reset.ctl = .idle ∧ State.reset.r = 0 ∧ State.reset.j = 0 ∧ State.reset.cool = 0 ∧
    State.reset.fbwait = Config.hw.feedbackTicks ∧ State.reset.started = false ∧ State.reset.fifo = [] ∧
    State.reset.osr = 0#32 ∧ State.reset.cnt = 32 ∧ State.reset.line = .z ∧ State.reset.fault = none ∧
    State.reset.bits = Config.signal ∧ State.reset.bits.length = 333 ∧ State.reset.wsStored = false ∧
    State.reset.ticks = 0 ∧ State.reset.emit = [] ∧ State.reset.wave = [] ∧ State.reset.enqs = [] ∧
    State.reset.streamLen = 11 ∧ State.reset.cfg = Config.hw ∧ Config.hw.wordWidth = 32 ∧ Config.hw.signalLength = 333 ∧
    Config.hw.streamLength = 11 ∧ Config.hw.freqHz = 2500#32 ∧ Config.hw.tSym = ⟨1, 2500⟩ ∧ Config.hw.repeatCount = 10 ∧
    Config.hw.flushWords = 1 ∧ Config.hw.cooldown = ⟨3, 1⟩ ∧ Config.hw.cooldownTicks = 7500 ∧
    Config.hw.feedbackTicks = Config.hw.feedbackDelay.ticks 2500 ∧ Config.hw.starvePolicy = .holdLast ∧
    Config.idleBit = false

/-- R41, which the spec derives from R35 and R37: the four conditions, in the states of the invariant, and their
values at reset. -/
def Obligations.SequencerConditions : Prop :=
  (∀ s : State, s.Inv →
    (s.fifoFull = true ↔ s.fifo.length = s.cfg.fifoDepth) ∧ (s.fifoEmpty = true ↔ s.fifo.length = 0) ∧
      (s.osrEmpty = true ↔ s.cnt = W) ∧
      (s.starved = true ↔ s.started = true ∧ s.osrEmpty = true ∧ s.fifoEmpty = true)) ∧
    State.reset.fifoFull = false ∧ State.reset.fifoEmpty = true ∧ State.reset.osrEmpty = true ∧
    State.reset.starved = false

/-- R88, the spec's decision D19: `tx_ready` says exactly when an `ENQ` is accepted, `cfg_err` is the set of causes,
and the line's two ports. R182: `LINE` is on the pin `cfg_pin` from `START` on, and the core drives no other pin and,
before `START`, none. -/
def Obligations.PortsViewTheState : Prop :=
  ∀ (s : State) (w : Word),
    (s.txReady = true ↔ ∃ t, exec (.enq w) s = .next t ∧ t.enqs = s.enqs ++ [w]) ∧
      (s.fault = none → s.cfgErr = 0#2) ∧
      (∀ c, s.fault = some c → s.cfgErr.getLsbD 0 = c.pinInvalid ∧ s.cfgErr.getLsbD 1 = c.freqUnrealizable) ∧
      (s.ookOe = false ↔ s.line = .z) ∧ (s.ookOut = some true ↔ s.line = .high) ∧
      (s.ookOut = some false ↔ s.line = .low) ∧
      (s.started = true → s.pinLevel s.cfgPin = s.line ∧ ∀ p, p ≠ s.cfgPin → s.pinLevel p = .z) ∧
      (s.started = false → ∀ p, s.pinLevel p = .z)

/-- R13 (decision D7) and R159: ticks are equally spaced, 400 µs apart at 2500 Hz (how the phase is held is
notes/assumptions/15.md). -/
def Obligations.TickPeriodIsExact : Prop :=
  (∀ (t0 : ℚ) (f n : Nat), tickTime t0 f (n + 1) - tickTime t0 f n = 1 / f) ∧
    (∀ c : Config, c.Valid → durationSeconds c.tSym = symbolPeriod c.freqHz.toNat) ∧
    symbolPeriod 2500 = 400 / 1000000 ∧ 0 ≤ hwTickPhase ∧ hwTickPhase < symbolPeriod 2500
end

