-- ==== Sys2Proof/Laws/State.lean ====
section
/-! SUPPORT. What each update of the state does to each field: one lemma per field, so that no proof unfolds a record
update. -/

namespace Sys2Proof.Machine

/-! ### takeConfigError -/

section
variable (c : Causes) (s : State)

@[simp] theorem takeConfigError_cfg : (takeConfigError c s).cfg = s.cfg := rfl
@[simp] theorem takeConfigError_bits : (takeConfigError c s).bits = s.bits := rfl
@[simp] theorem takeConfigError_wsStored : (takeConfigError c s).wsStored = s.wsStored := rfl
@[simp] theorem takeConfigError_ws : (takeConfigError c s).ws = s.ws := rfl
@[simp] theorem takeConfigError_started : (takeConfigError c s).started = s.started := rfl
@[simp] theorem takeConfigError_cfgFreq : (takeConfigError c s).cfgFreq = s.cfgFreq := rfl
@[simp] theorem takeConfigError_cfgPin : (takeConfigError c s).cfgPin = s.cfgPin := rfl
@[simp] theorem takeConfigError_fifo : (takeConfigError c s).fifo = s.fifo := rfl
@[simp] theorem takeConfigError_osr : (takeConfigError c s).osr = s.osr := rfl
@[simp] theorem takeConfigError_cnt : (takeConfigError c s).cnt = s.cnt := rfl
@[simp] theorem takeConfigError_line : (takeConfigError c s).line = s.line := rfl
@[simp] theorem takeConfigError_ctl : (takeConfigError c s).ctl = s.ctl := rfl
@[simp] theorem takeConfigError_r : (takeConfigError c s).r = s.r := rfl
@[simp] theorem takeConfigError_j : (takeConfigError c s).j = s.j := rfl
@[simp] theorem takeConfigError_cool : (takeConfigError c s).cool = s.cool := rfl
@[simp] theorem takeConfigError_fbwait : (takeConfigError c s).fbwait = s.fbwait := rfl
@[simp] theorem takeConfigError_fault : (takeConfigError c s).fault = some c := rfl
@[simp] theorem takeConfigError_ticks : (takeConfigError c s).ticks = s.ticks := rfl
@[simp] theorem takeConfigError_emit : (takeConfigError c s).emit = s.emit := rfl
@[simp] theorem takeConfigError_wave : (takeConfigError c s).wave = s.wave := rfl
@[simp] theorem takeConfigError_enqs : (takeConfigError c s).enqs = s.enqs := rfl
@[simp] theorem takeConfigError_fb : (takeConfigError c s).fb = s.fb := rfl
@[simp] theorem takeConfigError_encResult : (takeConfigError c s).encResult = s.encResult := rfl
@[simp] theorem takeConfigError_trace : (takeConfigError c s).trace = s.trace := rfl
@[simp] theorem takeConfigError_sched : (takeConfigError c s).sched = s.sched := rfl

end

/-! ### bindSequencer -/

section
variable (f : BitVec 32) (p : Nat) (s : State)

@[simp] theorem bindSequencer_cfg : (bindSequencer f p s).cfg = s.cfg := rfl
@[simp] theorem bindSequencer_bits : (bindSequencer f p s).bits = s.bits := rfl
@[simp] theorem bindSequencer_wsStored : (bindSequencer f p s).wsStored = s.wsStored := rfl
@[simp] theorem bindSequencer_ws : (bindSequencer f p s).ws = s.ws := rfl
@[simp] theorem bindSequencer_started : (bindSequencer f p s).started = true := rfl
@[simp] theorem bindSequencer_cfgFreq : (bindSequencer f p s).cfgFreq = f := rfl
@[simp] theorem bindSequencer_cfgPin : (bindSequencer f p s).cfgPin = p := rfl
@[simp] theorem bindSequencer_fifo : (bindSequencer f p s).fifo = s.fifo := rfl
@[simp] theorem bindSequencer_osr : (bindSequencer f p s).osr = s.osr := rfl
@[simp] theorem bindSequencer_cnt : (bindSequencer f p s).cnt = s.cnt := rfl
@[simp] theorem bindSequencer_line : (bindSequencer f p s).line = Level.ofBit Config.idleBit := rfl
@[simp] theorem bindSequencer_ctl : (bindSequencer f p s).ctl = s.ctl := rfl
@[simp] theorem bindSequencer_r : (bindSequencer f p s).r = s.r := rfl
@[simp] theorem bindSequencer_j : (bindSequencer f p s).j = s.j := rfl
@[simp] theorem bindSequencer_cool : (bindSequencer f p s).cool = s.cool := rfl
@[simp] theorem bindSequencer_fbwait : (bindSequencer f p s).fbwait = s.fbwait := rfl
@[simp] theorem bindSequencer_fault : (bindSequencer f p s).fault = s.fault := rfl
@[simp] theorem bindSequencer_ticks : (bindSequencer f p s).ticks = s.ticks := rfl
@[simp] theorem bindSequencer_emit : (bindSequencer f p s).emit = s.emit := rfl
@[simp] theorem bindSequencer_wave : (bindSequencer f p s).wave = s.wave := rfl
@[simp] theorem bindSequencer_enqs : (bindSequencer f p s).enqs = s.enqs := rfl
@[simp] theorem bindSequencer_fb : (bindSequencer f p s).fb = s.fb := rfl
@[simp] theorem bindSequencer_encResult : (bindSequencer f p s).encResult = s.encResult := rfl
@[simp] theorem bindSequencer_trace : (bindSequencer f p s).trace = s.trace := rfl
@[simp] theorem bindSequencer_sched : (bindSequencer f p s).sched = s.sched := rfl

end

/-! ### storeStream -/

section
variable (v : List Word) (s : State)

@[simp] theorem storeStream_cfg : (storeStream v s).cfg = s.cfg := rfl
@[simp] theorem storeStream_bits : (storeStream v s).bits = s.bits := rfl
@[simp] theorem storeStream_wsStored : (storeStream v s).wsStored = true := rfl
@[simp] theorem storeStream_ws : (storeStream v s).ws = v := rfl
@[simp] theorem storeStream_started : (storeStream v s).started = s.started := rfl
@[simp] theorem storeStream_cfgFreq : (storeStream v s).cfgFreq = s.cfgFreq := rfl
@[simp] theorem storeStream_cfgPin : (storeStream v s).cfgPin = s.cfgPin := rfl
@[simp] theorem storeStream_fifo : (storeStream v s).fifo = s.fifo := rfl
@[simp] theorem storeStream_osr : (storeStream v s).osr = s.osr := rfl
@[simp] theorem storeStream_cnt : (storeStream v s).cnt = s.cnt := rfl
@[simp] theorem storeStream_line : (storeStream v s).line = s.line := rfl
@[simp] theorem storeStream_ctl : (storeStream v s).ctl = s.ctl := rfl
@[simp] theorem storeStream_r : (storeStream v s).r = s.r := rfl
@[simp] theorem storeStream_j : (storeStream v s).j = s.j := rfl
@[simp] theorem storeStream_cool : (storeStream v s).cool = s.cool := rfl
@[simp] theorem storeStream_fbwait : (storeStream v s).fbwait = s.fbwait := rfl
@[simp] theorem storeStream_fault : (storeStream v s).fault = s.fault := rfl
@[simp] theorem storeStream_ticks : (storeStream v s).ticks = s.ticks := rfl
@[simp] theorem storeStream_emit : (storeStream v s).emit = s.emit := rfl
@[simp] theorem storeStream_wave : (storeStream v s).wave = s.wave := rfl
@[simp] theorem storeStream_enqs : (storeStream v s).enqs = s.enqs := rfl
@[simp] theorem storeStream_fb : (storeStream v s).fb = s.fb := rfl
@[simp] theorem storeStream_encResult : (storeStream v s).encResult = s.encResult := rfl
@[simp] theorem storeStream_trace : (storeStream v s).trace = s.trace := rfl
@[simp] theorem storeStream_sched : (storeStream v s).sched = s.sched := rfl

end

/-! ### returnWords -/

section
variable (v : List Nat) (s : State)

@[simp] theorem returnWords_cfg : (returnWords v s).cfg = s.cfg := rfl
@[simp] theorem returnWords_bits : (returnWords v s).bits = s.bits := rfl
@[simp] theorem returnWords_wsStored : (returnWords v s).wsStored = s.wsStored := rfl
@[simp] theorem returnWords_ws : (returnWords v s).ws = s.ws := rfl
@[simp] theorem returnWords_started : (returnWords v s).started = s.started := rfl
@[simp] theorem returnWords_cfgFreq : (returnWords v s).cfgFreq = s.cfgFreq := rfl
@[simp] theorem returnWords_cfgPin : (returnWords v s).cfgPin = s.cfgPin := rfl
@[simp] theorem returnWords_fifo : (returnWords v s).fifo = s.fifo := rfl
@[simp] theorem returnWords_osr : (returnWords v s).osr = s.osr := rfl
@[simp] theorem returnWords_cnt : (returnWords v s).cnt = s.cnt := rfl
@[simp] theorem returnWords_line : (returnWords v s).line = s.line := rfl
@[simp] theorem returnWords_ctl : (returnWords v s).ctl = s.ctl := rfl
@[simp] theorem returnWords_r : (returnWords v s).r = s.r := rfl
@[simp] theorem returnWords_j : (returnWords v s).j = s.j := rfl
@[simp] theorem returnWords_cool : (returnWords v s).cool = s.cool := rfl
@[simp] theorem returnWords_fbwait : (returnWords v s).fbwait = s.fbwait := rfl
@[simp] theorem returnWords_fault : (returnWords v s).fault = s.fault := rfl
@[simp] theorem returnWords_ticks : (returnWords v s).ticks = s.ticks := rfl
@[simp] theorem returnWords_emit : (returnWords v s).emit = s.emit := rfl
@[simp] theorem returnWords_wave : (returnWords v s).wave = s.wave := rfl
@[simp] theorem returnWords_enqs : (returnWords v s).enqs = s.enqs := rfl
@[simp] theorem returnWords_fb : (returnWords v s).fb = s.fb := rfl
@[simp] theorem returnWords_encResult : (returnWords v s).encResult = v := rfl
@[simp] theorem returnWords_trace : (returnWords v s).trace = s.trace := rfl
@[simp] theorem returnWords_sched : (returnWords v s).sched = s.sched := rfl

end

/-! ### pushWord -/

section
variable (w : Word) (s : State)

@[simp] theorem pushWord_cfg : (pushWord w s).cfg = s.cfg := rfl
@[simp] theorem pushWord_bits : (pushWord w s).bits = s.bits := rfl
@[simp] theorem pushWord_wsStored : (pushWord w s).wsStored = s.wsStored := rfl
@[simp] theorem pushWord_ws : (pushWord w s).ws = s.ws := rfl
@[simp] theorem pushWord_started : (pushWord w s).started = s.started := rfl
@[simp] theorem pushWord_cfgFreq : (pushWord w s).cfgFreq = s.cfgFreq := rfl
@[simp] theorem pushWord_cfgPin : (pushWord w s).cfgPin = s.cfgPin := rfl
@[simp] theorem pushWord_fifo : (pushWord w s).fifo = s.fifo ++ [w] := rfl
@[simp] theorem pushWord_osr : (pushWord w s).osr = s.osr := rfl
@[simp] theorem pushWord_cnt : (pushWord w s).cnt = s.cnt := rfl
@[simp] theorem pushWord_line : (pushWord w s).line = s.line := rfl
@[simp] theorem pushWord_ctl : (pushWord w s).ctl = s.ctl := rfl
@[simp] theorem pushWord_r : (pushWord w s).r = s.r := rfl
@[simp] theorem pushWord_j : (pushWord w s).j = s.j := rfl
@[simp] theorem pushWord_cool : (pushWord w s).cool = s.cool := rfl
@[simp] theorem pushWord_fbwait : (pushWord w s).fbwait = s.fbwait := rfl
@[simp] theorem pushWord_fault : (pushWord w s).fault = s.fault := rfl
@[simp] theorem pushWord_ticks : (pushWord w s).ticks = s.ticks := rfl
@[simp] theorem pushWord_emit : (pushWord w s).emit = s.emit := rfl
@[simp] theorem pushWord_wave : (pushWord w s).wave = s.wave := rfl
@[simp] theorem pushWord_enqs : (pushWord w s).enqs = s.enqs ++ [w] := rfl
@[simp] theorem pushWord_fb : (pushWord w s).fb = s.fb := rfl
@[simp] theorem pushWord_encResult : (pushWord w s).encResult = s.encResult := rfl
@[simp] theorem pushWord_trace : (pushWord w s).trace = s.trace := rfl
@[simp] theorem pushWord_sched : (pushWord w s).sched = s.sched := rfl

end

/-! ### emitSymbol -/

section
variable (b : Bool) (s : State)

@[simp] theorem emitSymbol_cfg : (emitSymbol b s).cfg = s.cfg := rfl
@[simp] theorem emitSymbol_bits : (emitSymbol b s).bits = s.bits := rfl
@[simp] theorem emitSymbol_wsStored : (emitSymbol b s).wsStored = s.wsStored := rfl
@[simp] theorem emitSymbol_ws : (emitSymbol b s).ws = s.ws := rfl
@[simp] theorem emitSymbol_started : (emitSymbol b s).started = s.started := rfl
@[simp] theorem emitSymbol_cfgFreq : (emitSymbol b s).cfgFreq = s.cfgFreq := rfl
@[simp] theorem emitSymbol_cfgPin : (emitSymbol b s).cfgPin = s.cfgPin := rfl
@[simp] theorem emitSymbol_fifo : (emitSymbol b s).fifo = s.fifo := rfl
@[simp] theorem emitSymbol_osr : (emitSymbol b s).osr = s.osr := rfl
@[simp] theorem emitSymbol_cnt : (emitSymbol b s).cnt = s.cnt := rfl
@[simp] theorem emitSymbol_line : (emitSymbol b s).line = Level.ofBit b := rfl
@[simp] theorem emitSymbol_ctl : (emitSymbol b s).ctl = s.ctl := rfl
@[simp] theorem emitSymbol_r : (emitSymbol b s).r = s.r := rfl
@[simp] theorem emitSymbol_j : (emitSymbol b s).j = s.j := rfl
@[simp] theorem emitSymbol_cool : (emitSymbol b s).cool = s.cool := rfl
@[simp] theorem emitSymbol_fbwait : (emitSymbol b s).fbwait = s.fbwait := rfl
@[simp] theorem emitSymbol_fault : (emitSymbol b s).fault = s.fault := rfl
@[simp] theorem emitSymbol_ticks : (emitSymbol b s).ticks = s.ticks := rfl
@[simp] theorem emitSymbol_emit : (emitSymbol b s).emit = s.emit ++ [b] := rfl
@[simp] theorem emitSymbol_wave : (emitSymbol b s).wave = s.wave := rfl
@[simp] theorem emitSymbol_enqs : (emitSymbol b s).enqs = s.enqs := rfl
@[simp] theorem emitSymbol_fb : (emitSymbol b s).fb = s.fb := rfl
@[simp] theorem emitSymbol_encResult : (emitSymbol b s).encResult = s.encResult := rfl
@[simp] theorem emitSymbol_trace : (emitSymbol b s).trace = s.trace := rfl
@[simp] theorem emitSymbol_sched : (emitSymbol b s).sched = s.sched := rfl

end

/-! ### loadWord -/

section
variable (w : Word) (q : List Word) (s : State)

@[simp] theorem loadWord_cfg : (loadWord w q s).cfg = s.cfg := rfl
@[simp] theorem loadWord_bits : (loadWord w q s).bits = s.bits := rfl
@[simp] theorem loadWord_wsStored : (loadWord w q s).wsStored = s.wsStored := rfl
@[simp] theorem loadWord_ws : (loadWord w q s).ws = s.ws := rfl
@[simp] theorem loadWord_started : (loadWord w q s).started = s.started := rfl
@[simp] theorem loadWord_cfgFreq : (loadWord w q s).cfgFreq = s.cfgFreq := rfl
@[simp] theorem loadWord_cfgPin : (loadWord w q s).cfgPin = s.cfgPin := rfl
@[simp] theorem loadWord_fifo : (loadWord w q s).fifo = q := rfl
@[simp] theorem loadWord_osr : (loadWord w q s).osr = w >>> 1 := rfl
@[simp] theorem loadWord_cnt : (loadWord w q s).cnt = 1 := rfl
@[simp] theorem loadWord_line : (loadWord w q s).line = s.line := rfl
@[simp] theorem loadWord_ctl : (loadWord w q s).ctl = s.ctl := rfl
@[simp] theorem loadWord_r : (loadWord w q s).r = s.r := rfl
@[simp] theorem loadWord_j : (loadWord w q s).j = s.j := rfl
@[simp] theorem loadWord_cool : (loadWord w q s).cool = s.cool := rfl
@[simp] theorem loadWord_fbwait : (loadWord w q s).fbwait = s.fbwait := rfl
@[simp] theorem loadWord_fault : (loadWord w q s).fault = s.fault := rfl
@[simp] theorem loadWord_ticks : (loadWord w q s).ticks = s.ticks := rfl
@[simp] theorem loadWord_emit : (loadWord w q s).emit = s.emit := rfl
@[simp] theorem loadWord_wave : (loadWord w q s).wave = s.wave := rfl
@[simp] theorem loadWord_enqs : (loadWord w q s).enqs = s.enqs := rfl
@[simp] theorem loadWord_fb : (loadWord w q s).fb = s.fb := rfl
@[simp] theorem loadWord_encResult : (loadWord w q s).encResult = s.encResult := rfl
@[simp] theorem loadWord_trace : (loadWord w q s).trace = s.trace := rfl
@[simp] theorem loadWord_sched : (loadWord w q s).sched = s.sched := rfl

end

/-! ### shiftOsr -/

section
variable (s : State)

@[simp] theorem shiftOsr_cfg : (shiftOsr s).cfg = s.cfg := rfl
@[simp] theorem shiftOsr_bits : (shiftOsr s).bits = s.bits := rfl
@[simp] theorem shiftOsr_wsStored : (shiftOsr s).wsStored = s.wsStored := rfl
@[simp] theorem shiftOsr_ws : (shiftOsr s).ws = s.ws := rfl
@[simp] theorem shiftOsr_started : (shiftOsr s).started = s.started := rfl
@[simp] theorem shiftOsr_cfgFreq : (shiftOsr s).cfgFreq = s.cfgFreq := rfl
@[simp] theorem shiftOsr_cfgPin : (shiftOsr s).cfgPin = s.cfgPin := rfl
@[simp] theorem shiftOsr_fifo : (shiftOsr s).fifo = s.fifo := rfl
@[simp] theorem shiftOsr_osr : (shiftOsr s).osr = s.osr >>> 1 := rfl
@[simp] theorem shiftOsr_cnt : (shiftOsr s).cnt = s.cnt + 1 := rfl
@[simp] theorem shiftOsr_line : (shiftOsr s).line = s.line := rfl
@[simp] theorem shiftOsr_ctl : (shiftOsr s).ctl = s.ctl := rfl
@[simp] theorem shiftOsr_r : (shiftOsr s).r = s.r := rfl
@[simp] theorem shiftOsr_j : (shiftOsr s).j = s.j := rfl
@[simp] theorem shiftOsr_cool : (shiftOsr s).cool = s.cool := rfl
@[simp] theorem shiftOsr_fbwait : (shiftOsr s).fbwait = s.fbwait := rfl
@[simp] theorem shiftOsr_fault : (shiftOsr s).fault = s.fault := rfl
@[simp] theorem shiftOsr_ticks : (shiftOsr s).ticks = s.ticks := rfl
@[simp] theorem shiftOsr_emit : (shiftOsr s).emit = s.emit := rfl
@[simp] theorem shiftOsr_wave : (shiftOsr s).wave = s.wave := rfl
@[simp] theorem shiftOsr_enqs : (shiftOsr s).enqs = s.enqs := rfl
@[simp] theorem shiftOsr_fb : (shiftOsr s).fb = s.fb := rfl
@[simp] theorem shiftOsr_encResult : (shiftOsr s).encResult = s.encResult := rfl
@[simp] theorem shiftOsr_trace : (shiftOsr s).trace = s.trace := rfl
@[simp] theorem shiftOsr_sched : (shiftOsr s).sched = s.sched := rfl

end

/-! ### countTick -/

section
variable (s : State)

@[simp] theorem countTick_cfg : (countTick s).cfg = s.cfg := rfl
@[simp] theorem countTick_bits : (countTick s).bits = s.bits := rfl
@[simp] theorem countTick_wsStored : (countTick s).wsStored = s.wsStored := rfl
@[simp] theorem countTick_ws : (countTick s).ws = s.ws := rfl
@[simp] theorem countTick_started : (countTick s).started = s.started := rfl
@[simp] theorem countTick_cfgFreq : (countTick s).cfgFreq = s.cfgFreq := rfl
@[simp] theorem countTick_cfgPin : (countTick s).cfgPin = s.cfgPin := rfl
@[simp] theorem countTick_fifo : (countTick s).fifo = s.fifo := rfl
@[simp] theorem countTick_osr : (countTick s).osr = s.osr := rfl
@[simp] theorem countTick_cnt : (countTick s).cnt = s.cnt := rfl
@[simp] theorem countTick_line : (countTick s).line = s.line := rfl
@[simp] theorem countTick_ctl : (countTick s).ctl = s.ctl := rfl
@[simp] theorem countTick_r : (countTick s).r = s.r := rfl
@[simp] theorem countTick_j : (countTick s).j = s.j := rfl
@[simp] theorem countTick_cool : (countTick s).cool = if s.ctl = .cooldown then s.cool + 1 else s.cool := rfl
@[simp] theorem countTick_fbwait : (countTick s).fbwait = if s.ctl = .transmitting then s.fbwait + 1 else s.fbwait := rfl
@[simp] theorem countTick_fault : (countTick s).fault = s.fault := rfl
@[simp] theorem countTick_ticks : (countTick s).ticks = s.ticks + 1 := rfl
@[simp] theorem countTick_emit : (countTick s).emit = s.emit := rfl
@[simp] theorem countTick_wave : (countTick s).wave = s.wave ++ [s.line] := rfl
@[simp] theorem countTick_enqs : (countTick s).enqs = s.enqs := rfl
@[simp] theorem countTick_fb : (countTick s).fb = s.fb := rfl
@[simp] theorem countTick_encResult : (countTick s).encResult = s.encResult := rfl
@[simp] theorem countTick_trace : (countTick s).trace = s.trace := rfl
@[simp] theorem countTick_sched : (countTick s).sched = s.sched := rfl

end

/-! ### callFb -/

section
variable (c : FbCall) (s : State)

@[simp] theorem callFb_cfg : (callFb c s).cfg = s.cfg := rfl
@[simp] theorem callFb_bits : (callFb c s).bits = s.bits := rfl
@[simp] theorem callFb_wsStored : (callFb c s).wsStored = s.wsStored := rfl
@[simp] theorem callFb_ws : (callFb c s).ws = s.ws := rfl
@[simp] theorem callFb_started : (callFb c s).started = s.started := rfl
@[simp] theorem callFb_cfgFreq : (callFb c s).cfgFreq = s.cfgFreq := rfl
@[simp] theorem callFb_cfgPin : (callFb c s).cfgPin = s.cfgPin := rfl
@[simp] theorem callFb_fifo : (callFb c s).fifo = s.fifo := rfl
@[simp] theorem callFb_osr : (callFb c s).osr = s.osr := rfl
@[simp] theorem callFb_cnt : (callFb c s).cnt = s.cnt := rfl
@[simp] theorem callFb_line : (callFb c s).line = s.line := rfl
@[simp] theorem callFb_ctl : (callFb c s).ctl = s.ctl := rfl
@[simp] theorem callFb_r : (callFb c s).r = s.r := rfl
@[simp] theorem callFb_j : (callFb c s).j = s.j := rfl
@[simp] theorem callFb_cool : (callFb c s).cool = s.cool := rfl
@[simp] theorem callFb_fbwait : (callFb c s).fbwait = s.fbwait := rfl
@[simp] theorem callFb_fault : (callFb c s).fault = s.fault := rfl
@[simp] theorem callFb_ticks : (callFb c s).ticks = s.ticks := rfl
@[simp] theorem callFb_emit : (callFb c s).emit = s.emit := rfl
@[simp] theorem callFb_wave : (callFb c s).wave = s.wave := rfl
@[simp] theorem callFb_enqs : (callFb c s).enqs = s.enqs := rfl
@[simp] theorem callFb_fb : (callFb c s).fb = s.fb ++ [c] := rfl
@[simp] theorem callFb_encResult : (callFb c s).encResult = s.encResult := rfl
@[simp] theorem callFb_trace : (callFb c s).trace = s.trace := rfl
@[simp] theorem callFb_sched : (callFb c s).sched = s.sched := rfl

end

/-! ### setCtl -/

section
variable (m : CtlState) (r j : Nat) (s : State)

@[simp] theorem setCtl_cfg : (setCtl m r j s).cfg = s.cfg := rfl
@[simp] theorem setCtl_bits : (setCtl m r j s).bits = s.bits := rfl
@[simp] theorem setCtl_wsStored : (setCtl m r j s).wsStored = s.wsStored := rfl
@[simp] theorem setCtl_ws : (setCtl m r j s).ws = s.ws := rfl
@[simp] theorem setCtl_started : (setCtl m r j s).started = s.started := rfl
@[simp] theorem setCtl_cfgFreq : (setCtl m r j s).cfgFreq = s.cfgFreq := rfl
@[simp] theorem setCtl_cfgPin : (setCtl m r j s).cfgPin = s.cfgPin := rfl
@[simp] theorem setCtl_fifo : (setCtl m r j s).fifo = s.fifo := rfl
@[simp] theorem setCtl_osr : (setCtl m r j s).osr = s.osr := rfl
@[simp] theorem setCtl_cnt : (setCtl m r j s).cnt = s.cnt := rfl
@[simp] theorem setCtl_line : (setCtl m r j s).line = s.line := rfl
@[simp] theorem setCtl_ctl : (setCtl m r j s).ctl = m := rfl
@[simp] theorem setCtl_r : (setCtl m r j s).r = r := rfl
@[simp] theorem setCtl_j : (setCtl m r j s).j = j := rfl
@[simp] theorem setCtl_cool : (setCtl m r j s).cool = s.cool := rfl
@[simp] theorem setCtl_fbwait : (setCtl m r j s).fbwait = s.fbwait := rfl
@[simp] theorem setCtl_fault : (setCtl m r j s).fault = s.fault := rfl
@[simp] theorem setCtl_ticks : (setCtl m r j s).ticks = s.ticks := rfl
@[simp] theorem setCtl_emit : (setCtl m r j s).emit = s.emit := rfl
@[simp] theorem setCtl_wave : (setCtl m r j s).wave = s.wave := rfl
@[simp] theorem setCtl_enqs : (setCtl m r j s).enqs = s.enqs := rfl
@[simp] theorem setCtl_fb : (setCtl m r j s).fb = s.fb := rfl
@[simp] theorem setCtl_encResult : (setCtl m r j s).encResult = s.encResult := rfl
@[simp] theorem setCtl_trace : (setCtl m r j s).trace = s.trace := rfl
@[simp] theorem setCtl_sched : (setCtl m r j s).sched = s.sched := rfl

end

/-! ### spendChoice -/

section
variable (s : State)

@[simp] theorem spendChoice_cfg : (spendChoice s).cfg = s.cfg := rfl
@[simp] theorem spendChoice_bits : (spendChoice s).bits = s.bits := rfl
@[simp] theorem spendChoice_wsStored : (spendChoice s).wsStored = s.wsStored := rfl
@[simp] theorem spendChoice_ws : (spendChoice s).ws = s.ws := rfl
@[simp] theorem spendChoice_started : (spendChoice s).started = s.started := rfl
@[simp] theorem spendChoice_cfgFreq : (spendChoice s).cfgFreq = s.cfgFreq := rfl
@[simp] theorem spendChoice_cfgPin : (spendChoice s).cfgPin = s.cfgPin := rfl
@[simp] theorem spendChoice_fifo : (spendChoice s).fifo = s.fifo := rfl
@[simp] theorem spendChoice_osr : (spendChoice s).osr = s.osr := rfl
@[simp] theorem spendChoice_cnt : (spendChoice s).cnt = s.cnt := rfl
@[simp] theorem spendChoice_line : (spendChoice s).line = s.line := rfl
@[simp] theorem spendChoice_ctl : (spendChoice s).ctl = s.ctl := rfl
@[simp] theorem spendChoice_r : (spendChoice s).r = s.r := rfl
@[simp] theorem spendChoice_j : (spendChoice s).j = s.j := rfl
@[simp] theorem spendChoice_cool : (spendChoice s).cool = s.cool := rfl
@[simp] theorem spendChoice_fbwait : (spendChoice s).fbwait = s.fbwait := rfl
@[simp] theorem spendChoice_fault : (spendChoice s).fault = s.fault := rfl
@[simp] theorem spendChoice_ticks : (spendChoice s).ticks = s.ticks := rfl
@[simp] theorem spendChoice_emit : (spendChoice s).emit = s.emit := rfl
@[simp] theorem spendChoice_wave : (spendChoice s).wave = s.wave := rfl
@[simp] theorem spendChoice_enqs : (spendChoice s).enqs = s.enqs := rfl
@[simp] theorem spendChoice_fb : (spendChoice s).fb = s.fb := rfl
@[simp] theorem spendChoice_encResult : (spendChoice s).encResult = s.encResult := rfl
@[simp] theorem spendChoice_trace : (spendChoice s).trace = s.trace := rfl
@[simp] theorem spendChoice_sched : (spendChoice s).sched = s.sched + 1 := rfl

end

/-! ### withTrace -/

section
variable (v : List Line) (s : State)

@[simp] theorem withTrace_cfg : (withTrace v s).cfg = s.cfg := rfl
@[simp] theorem withTrace_bits : (withTrace v s).bits = s.bits := rfl
@[simp] theorem withTrace_wsStored : (withTrace v s).wsStored = s.wsStored := rfl
@[simp] theorem withTrace_ws : (withTrace v s).ws = s.ws := rfl
@[simp] theorem withTrace_started : (withTrace v s).started = s.started := rfl
@[simp] theorem withTrace_cfgFreq : (withTrace v s).cfgFreq = s.cfgFreq := rfl
@[simp] theorem withTrace_cfgPin : (withTrace v s).cfgPin = s.cfgPin := rfl
@[simp] theorem withTrace_fifo : (withTrace v s).fifo = s.fifo := rfl
@[simp] theorem withTrace_osr : (withTrace v s).osr = s.osr := rfl
@[simp] theorem withTrace_cnt : (withTrace v s).cnt = s.cnt := rfl
@[simp] theorem withTrace_line : (withTrace v s).line = s.line := rfl
@[simp] theorem withTrace_ctl : (withTrace v s).ctl = s.ctl := rfl
@[simp] theorem withTrace_r : (withTrace v s).r = s.r := rfl
@[simp] theorem withTrace_j : (withTrace v s).j = s.j := rfl
@[simp] theorem withTrace_cool : (withTrace v s).cool = s.cool := rfl
@[simp] theorem withTrace_fbwait : (withTrace v s).fbwait = s.fbwait := rfl
@[simp] theorem withTrace_fault : (withTrace v s).fault = s.fault := rfl
@[simp] theorem withTrace_ticks : (withTrace v s).ticks = s.ticks := rfl
@[simp] theorem withTrace_emit : (withTrace v s).emit = s.emit := rfl
@[simp] theorem withTrace_wave : (withTrace v s).wave = s.wave := rfl
@[simp] theorem withTrace_enqs : (withTrace v s).enqs = s.enqs := rfl
@[simp] theorem withTrace_fb : (withTrace v s).fb = s.fb := rfl
@[simp] theorem withTrace_encResult : (withTrace v s).encResult = s.encResult := rfl
@[simp] theorem withTrace_trace : (withTrace v s).trace = v := rfl
@[simp] theorem withTrace_sched : (withTrace v s).sched = s.sched := rfl

end

end Sys2Proof.Machine
end

