-- ==== Sys2Proof/Laws/Ops.lean ====
section
/-! SUPPORT. What each shared operation can do, said once: gates and holds, the push, the tick, and the inversion of each
instruction's meaning. -/

namespace Sys2Proof.Machine

/-! ### Gates and holds -/

theorem next_eq {a b : State} : (Host.Outcome.next a : Result) = .next b ↔ b = a :=
  ⟨fun h => by cases h; rfl, fun h => by rw [h]⟩

theorem ifNoFault_next {s t : State} {k : Result} :
    ifNoFault s k = .next t ↔ s.fault = none ∧ k = .next t := by
  unfold ifNoFault
  split <;> simp_all

theorem ifRunning_next {s t : State} {k : Result} :
    ifRunning s k = .next t ↔ s.fault = none ∧ s.started = true ∧ k = .next t := by
  unfold ifRunning
  rw [ifNoFault_next]
  split <;> simp_all

theorem ifEnabled_next {c : Bool} {t : State} {k : Result} :
    ifEnabled c k = .next t ↔ c = true ∧ k = .next t := by
  unfold ifEnabled
  split <;> simp_all

theorem orHold_next {c : Bool} {s t : State} {k : Result} :
    orHold c s k = .next t ↔ (c = true ∧ t = s) ∨ (c = false ∧ k = .next t) := by
  cases c <;> simp [orHold, -Host.Outcome.next.injEq, next_eq]

theorem enqThen_next {w : Word} {after : State → State} {s t : State} :
    enqThen w after s = .next t ↔
      (s.fifoFull = true ∧ t = s) ∨ (s.fifoFull = false ∧ t = after (pushWord w s)) := by
  unfold enqThen
  rw [orHold_next, next_eq]

theorem ifNoFault_of_none {s : State} (h : s.fault = none) (k : Result) : ifNoFault s k = k := by
  simp [ifNoFault, h]

theorem ifRunning_of_running {s : State} (hf : s.fault = none) (hs : s.started = true) (k : Result) :
    ifRunning s k = k := by
  simp [ifRunning, ifNoFault, hf, hs]

theorem ifRunning_fault {s : State} {c : Causes} (h : s.fault = some c) (k : Result) :
    ifRunning s k = .refused .afterFault := by
  simp [ifRunning, ifNoFault, h]

theorem ifRunning_not_started {s : State} (hf : s.fault = none) (hs : s.started = false) (k : Result) :
    ifRunning s k = .refused .notStarted := by
  simp [ifRunning, ifNoFault, hf, hs]

theorem running_iff {s : State} : s.running = true ↔ s.fault = none ∧ s.started = true := by
  simp [State.running]

/-! ### The tick -/

theorem tick_pull {s : State} {w : Word} {rest : List Word} (hc : s.osrEmpty = true) (hf : s.fifo = w :: rest) :
    tick s = pulled w rest s := by
  simp [tick, hc, hf]

theorem tick_shift {s : State} (hc : s.osrEmpty = false) : tick s = shifted s := by
  simp [tick, hc]

theorem tick_starve {s : State} (hc : s.osrEmpty = true) (hf : s.fifo = []) : tick s = starvedTick s := by
  simp [tick, hc, hf]

/-- The three ways a tick goes. -/
theorem tick_cases (s : State) :
    (∃ w rest, s.osrEmpty = true ∧ s.fifo = w :: rest ∧ tick s = pulled w rest s) ∨
      (s.osrEmpty = false ∧ tick s = shifted s) ∨ (s.osrEmpty = true ∧ s.fifo = [] ∧ tick s = starvedTick s) := by
  cases hc : s.osrEmpty with
  | false => exact .inr (.inl ⟨rfl, tick_shift hc⟩)
  | true =>
    cases hf : s.fifo with
    | nil => exact .inr (.inr ⟨rfl, rfl, tick_starve hc hf⟩)
    | cons w rest => exact .inl ⟨w, rest, rfl, rfl, tick_pull hc hf⟩

section
variable (s : State)

theorem tick_frame :
    (tick s).cfg = s.cfg ∧ (tick s).bits = s.bits ∧ (tick s).wsStored = s.wsStored ∧ (tick s).ws = s.ws ∧
      (tick s).started = s.started ∧ (tick s).cfgFreq = s.cfgFreq ∧ (tick s).cfgPin = s.cfgPin ∧
      (tick s).ctl = s.ctl ∧ (tick s).r = s.r ∧ (tick s).j = s.j ∧ (tick s).fault = s.fault ∧
      (tick s).ticks = s.ticks + 1 ∧ (tick s).wave = s.wave ++ [(tick s).line] ∧ (tick s).enqs = s.enqs ∧
      (tick s).fb = s.fb ∧ (tick s).encResult = s.encResult ∧ (tick s).trace = s.trace ∧ (tick s).sched = s.sched ∧
      (tick s).cool = (if s.ctl = .cooldown then s.cool + 1 else s.cool) ∧
      (tick s).fbwait = (if s.ctl = .transmitting then s.fbwait + 1 else s.fbwait) := by
  rcases tick_cases s with ⟨w, rest, -, -, h⟩ | ⟨-, h⟩ | ⟨-, -, h⟩ <;>
    rw [h] <;> simp only [pulled, shifted, starvedTick] <;> simp <;> exact ⟨rfl, rfl⟩

@[simp] theorem tick_cfg : (tick s).cfg = s.cfg := (tick_frame s).1
@[simp] theorem tick_bits : (tick s).bits = s.bits := (tick_frame s).2.1
@[simp] theorem tick_wsStored : (tick s).wsStored = s.wsStored := (tick_frame s).2.2.1
@[simp] theorem tick_ws : (tick s).ws = s.ws := (tick_frame s).2.2.2.1
@[simp] theorem tick_started : (tick s).started = s.started := (tick_frame s).2.2.2.2.1
@[simp] theorem tick_cfgFreq : (tick s).cfgFreq = s.cfgFreq := (tick_frame s).2.2.2.2.2.1
@[simp] theorem tick_cfgPin : (tick s).cfgPin = s.cfgPin := (tick_frame s).2.2.2.2.2.2.1
@[simp] theorem tick_ctl : (tick s).ctl = s.ctl := (tick_frame s).2.2.2.2.2.2.2.1
@[simp] theorem tick_r : (tick s).r = s.r := (tick_frame s).2.2.2.2.2.2.2.2.1
@[simp] theorem tick_j : (tick s).j = s.j := (tick_frame s).2.2.2.2.2.2.2.2.2.1
@[simp] theorem tick_fault : (tick s).fault = s.fault := (tick_frame s).2.2.2.2.2.2.2.2.2.2.1
@[simp] theorem tick_ticks : (tick s).ticks = s.ticks + 1 := (tick_frame s).2.2.2.2.2.2.2.2.2.2.2.1
theorem tick_wave : (tick s).wave = s.wave ++ [(tick s).line] := (tick_frame s).2.2.2.2.2.2.2.2.2.2.2.2.1
@[simp] theorem tick_enqs : (tick s).enqs = s.enqs := (tick_frame s).2.2.2.2.2.2.2.2.2.2.2.2.2.1
@[simp] theorem tick_fb : (tick s).fb = s.fb := (tick_frame s).2.2.2.2.2.2.2.2.2.2.2.2.2.2.1
@[simp] theorem tick_encResult : (tick s).encResult = s.encResult := (tick_frame s).2.2.2.2.2.2.2.2.2.2.2.2.2.2.2.1
@[simp] theorem tick_trace : (tick s).trace = s.trace := (tick_frame s).2.2.2.2.2.2.2.2.2.2.2.2.2.2.2.2.1
@[simp] theorem tick_sched : (tick s).sched = s.sched := (tick_frame s).2.2.2.2.2.2.2.2.2.2.2.2.2.2.2.2.2.1
@[simp] theorem tick_cool : (tick s).cool = if s.ctl = .cooldown then s.cool + 1 else s.cool :=
  (tick_frame s).2.2.2.2.2.2.2.2.2.2.2.2.2.2.2.2.2.2.1
@[simp] theorem tick_fbwait : (tick s).fbwait = if s.ctl = .transmitting then s.fbwait + 1 else s.fbwait :=
  (tick_frame s).2.2.2.2.2.2.2.2.2.2.2.2.2.2.2.2.2.2.2

end

/-- What holds of a state and is kept by a tick holds after any number of ticks. -/
theorem ticksN_keeps {P : State → Prop} (hk : ∀ s, P s → P (tick s)) : ∀ n s, P s → P (ticksN n s)
  | 0, _, h => h
  | n + 1, s, h => ticksN_keeps hk n (tick s) (hk s h)

/-- What `n` ticks leave alone, and how the counters move with them. -/
theorem ticksN_frame : ∀ (n : Nat) (s : State),
    (ticksN n s).cfg = s.cfg ∧ (ticksN n s).bits = s.bits ∧ (ticksN n s).wsStored = s.wsStored ∧
      (ticksN n s).ws = s.ws ∧ (ticksN n s).started = s.started ∧ (ticksN n s).cfgFreq = s.cfgFreq ∧
      (ticksN n s).cfgPin = s.cfgPin ∧ (ticksN n s).ctl = s.ctl ∧ (ticksN n s).r = s.r ∧ (ticksN n s).j = s.j ∧
      (ticksN n s).fault = s.fault ∧ (ticksN n s).ticks = s.ticks + n ∧ (ticksN n s).enqs = s.enqs ∧
      (ticksN n s).fb = s.fb ∧ (ticksN n s).encResult = s.encResult ∧ (ticksN n s).trace = s.trace ∧
      (ticksN n s).sched = s.sched ∧
      (ticksN n s).cool = (if s.ctl = .cooldown then s.cool + n else s.cool) ∧
      (ticksN n s).fbwait = (if s.ctl = .transmitting then s.fbwait + n else s.fbwait)
  | 0, s => by simp [ticksN]
  | n + 1, s => by
    have h := ticksN_frame n (tick s)
    simp only [tick_cfg, tick_bits, tick_wsStored, tick_ws, tick_started, tick_cfgFreq, tick_cfgPin, tick_ctl, tick_r,
      tick_j, tick_fault, tick_ticks, tick_enqs, tick_fb, tick_encResult, tick_trace, tick_sched, tick_cool,
      tick_fbwait] at h
    simp only [ticksN, h, true_and]
    refine ⟨by omega, ?_, ?_⟩ <;> split <;> omega

theorem ticksN_add : ∀ (m n : Nat) (s : State), ticksN (m + n) s = ticksN n (ticksN m s)
  | 0, n, s => by simp [ticksN]
  | m + 1, n, s => by rw [Nat.add_right_comm]; exact ticksN_add m n (tick s)

theorem emitNext_next {b : Bool} {s t : State} :
    emitNext b s = .next t ↔ s.nextSymbol = some b ∧ t = tick s := by
  unfold emitNext
  split <;> simp_all [-Host.Outcome.next.injEq, next_eq]

theorem emitWord_next {w : Word} {s t : State} :
    emitWord w s = .next t ↔ s.nextWord = some w ∧ t = ticksN W s := by
  unfold emitWord
  split <;> simp_all [-Host.Outcome.next.injEq, next_eq]

theorem nextWord_eq_some {w : Word} {s : State} :
    s.nextWord = some w ↔ s.osrEmpty = true ∧ ∃ rest, s.fifo = w :: rest := by
  unfold State.nextWord
  split <;> simp_all [List.head?_eq_some_iff]

/-! ### The inversion of each meaning: when it answers a next state, and which one -/

theorem execSymOn_next {s t : State} :
    execSymOn s = .next t ↔ s.fault = none ∧ s.started = true ∧ s.nextSymbol = some true ∧ t = tick s := by
  rw [execSymOn, ifRunning_next, emitNext_next]

theorem execSymOff_next {s t : State} :
    execSymOff s = .next t ↔ s.fault = none ∧ s.started = true ∧ s.nextSymbol = some false ∧ t = tick s := by
  rw [execSymOff, ifRunning_next, emitNext_next]

theorem execWord_next {w : Word} {s t : State} :
    execWord w s = .next t ↔ s.fault = none ∧ s.started = true ∧ s.nextWord = some w ∧ t = ticksN W s := by
  rw [execWord, ifRunning_next, emitWord_next]

theorem execWordZero_next {s t : State} :
    execWordZero s = .next t ↔ s.fault = none ∧ s.started = true ∧ s.nextWord = some 0#32 ∧ t = ticksN W s := by
  rw [execWordZero, ifRunning_next, emitWord_next]

theorem execEncode_next {bits : List Bool} {width : Nat} {s t : State} :
    execEncode bits width s = .next t ↔
      s.fault = none ∧ width ≠ 0 ∧
        t = returnWords (packBits width bits)
          (if isBootEncode bits width s then storeStream (packWords bits) s else s) := by
  rw [execEncode, ifNoFault_next]
  split <;> simp_all [-Host.Outcome.next.injEq, next_eq]

theorem execStart_next {f : BitVec 32} {p : Nat} {s t : State} :
    execStart f p s = .next t ↔
      s.fault = none ∧ s.started = false ∧
        (((startCauses s.cfg f p).any = true ∧ t = takeConfigError (startCauses s.cfg f p) s) ∨
          ((startCauses s.cfg f p).any = false ∧ t = bindSequencer f p s)) := by
  rw [execStart, ifNoFault_next]
  cases s.started <;> cases (startCauses s.cfg f p).any <;> simp [-Host.Outcome.next.injEq, next_eq]

theorem execEnq_next {w : Word} {s t : State} :
    execEnq w s = .next t ↔ s.fault = none ∧ s.started = true ∧
      ((s.fifoFull = true ∧ t = s) ∨ (s.fifoFull = false ∧ t = pushWord w s)) := by
  rw [execEnq, ifRunning_next, enqThen_next]
  rfl

theorem execFlush_next {s t : State} :
    execFlush s = .next t ↔ s.fault = none ∧ s.started = true ∧
      ((s.fifoFull = true ∧ t = s) ∨ (s.fifoFull = false ∧ t = pushWord 0#32 s)) := by
  rw [execFlush, ifRunning_next, enqThen_next]
  rfl

theorem execTickPull_next {s t : State} :
    execTickPull s = .next t ↔ s.fault = none ∧ s.started = true ∧ s.osrEmpty = true ∧ s.fifo ≠ [] ∧ t = tick s := by
  rw [execTickPull, ifRunning_next]
  cases hf : s.fifo with
  | nil => simp
  | cons w rest =>
    simp only [ifEnabled_next]
    constructor
    · rintro ⟨h1, h2, h3, h4⟩
      rw [tick_pull h3 hf]
      exact ⟨h1, h2, h3, by simp, by cases h4; rfl⟩
    · rintro ⟨h1, h2, h3, -, h4⟩
      exact ⟨h1, h2, h3, by rw [h4, tick_pull h3 hf]⟩

theorem execTickShift_next {s t : State} :
    execTickShift s = .next t ↔ s.fault = none ∧ s.started = true ∧ s.osrEmpty = false ∧ t = tick s := by
  rw [execTickShift, ifRunning_next, ifEnabled_next]
  cases h : s.osrEmpty <;> simp [tick_shift, h, -Host.Outcome.next.injEq, next_eq]

theorem execTickStarve_next {s t : State} :
    execTickStarve s = .next t ↔ s.fault = none ∧ s.started = true ∧ s.osrEmpty = true ∧ s.fifo = [] ∧ t = tick s := by
  rw [execTickStarve, ifRunning_next, ifEnabled_next]
  cases h : s.osrEmpty <;> cases hf : s.fifo <;> simp [State.fifoEmpty, tick_starve, h, hf, -Host.Outcome.next.injEq, next_eq]

theorem execCtlBegin_next {s t : State} :
    execCtlBegin s = .next t ↔ s.fault = none ∧ s.started = true ∧ s.ctl = .idle ∧ s.wsStored = true ∧
      s.cfg.repeatCount ≠ 0 ∧ t = { setCtl .transmitting 0 0 s with fbwait := s.cfg.feedbackTicks } := by
  rw [execCtlBegin, ifRunning_next, ifEnabled_next]
  by_cases h : s.cfg.repeatCount = 0 <;> simp [h, State.beginDue, and_assoc, -Host.Outcome.next.injEq, next_eq]

theorem execCtlSend_next {s t : State} :
    execCtlSend s = .next t ↔ s.fault = none ∧ s.started = true ∧ s.ctl = .transmitting ∧ s.r < s.cfg.repeatCount ∧
      s.j < s.streamLen ∧ (((s.fbwait < s.cfg.feedbackTicks ∨ s.fifoFull = true) ∧ t = s) ∨
        ((s.cfg.feedbackTicks ≤ s.fbwait ∧ s.fifoFull = false) ∧
          t = setCtl .transmitting s.r (s.j + 1) (pushWord (s.memRead s.j) s))) := by
  rw [execCtlSend, ifRunning_next, ifEnabled_next, orHold_next, enqThen_next]
  by_cases h : s.fbwait < s.cfg.feedbackTicks <;> cases hf : s.fifoFull <;>
    simp [State.sendDue, State.inFeedbackDelay, h, and_assoc, Nat.not_lt.mp, Nat.not_le_of_lt]

theorem execCtlEndPass_next {s t : State} :
    execCtlEndPass s = .next t ↔ s.fault = none ∧ s.started = true ∧ s.ctl = .transmitting ∧
      s.r < s.cfg.repeatCount ∧ s.j = s.streamLen ∧
      t = { setCtl .transmitting (s.r + 1) 0 (callFb .toggle s) with fbwait := 0 } := by
  rw [execCtlEndPass, ifRunning_next, ifEnabled_next]
  simp [State.endPassDue, and_assoc, -Host.Outcome.next.injEq, next_eq]

theorem execCtlToFlush_next {s t : State} :
    execCtlToFlush s = .next t ↔ s.fault = none ∧ s.started = true ∧ s.ctl = .transmitting ∧
      s.r = s.cfg.repeatCount ∧ ((s.fifoFull = true ∧ t = s) ∨
        (s.fifoFull = false ∧ t = setCtl .flushing s.r s.j (pushWord 0#32 s))) := by
  rw [execCtlToFlush, ifRunning_next, ifEnabled_next, enqThen_next]
  simp [State.flushDue, and_assoc]

theorem execCtlToCool_next {s t : State} :
    execCtlToCool s = .next t ↔ s.fault = none ∧ s.started = true ∧ s.ctl = .flushing ∧
      t = { setCtl .cooldown s.r s.j (callFb .idle s) with cool := 0 } := by
  rw [execCtlToCool, ifRunning_next, ifEnabled_next]
  simp [-Host.Outcome.next.injEq, next_eq]

theorem execCtlCoolDone_next {s t : State} :
    execCtlCoolDone s = .next t ↔ s.fault = none ∧ s.started = true ∧ s.ctl = .cooldown ∧
      ((s.cool < s.cfg.cooldownTicks ∧ t = s) ∨ (s.cfg.cooldownTicks ≤ s.cool ∧ t = setCtl .idle 0 0 s)) := by
  rw [execCtlCoolDone, ifRunning_next, ifEnabled_next, orHold_next]
  simp [State.inCooldownWait, -Host.Outcome.next.injEq, next_eq]

theorem execFbToggle_next {s t : State} :
    execFbToggle s = .next t ↔ s.fault = none ∧ s.started = true ∧ t = callFb .toggle s := by
  rw [execFbToggle, ifRunning_next]
  simp [-Host.Outcome.next.injEq, next_eq]

theorem execFbIdle_next {s t : State} :
    execFbIdle s = .next t ↔ s.fault = none ∧ s.started = true ∧ t = callFb .idle s := by
  rw [execFbIdle, ifRunning_next]
  simp [-Host.Outcome.next.injEq, next_eq]

end Sys2Proof.Machine
end

