-- ==== Sys2Proof/Laws/PerInstr.lean ====
section
/-! SUPPORT. Statements made instruction by instruction: no operation is encoded with a reserved selector (R110, R111). -/

namespace Sys2Proof.Laws

/-- If the instruction's encoding is an OP line, its selector is one of the fourteen that R110 lists. -/
def SelectorLegal.Statement (i : Instr) : Prop := ∀ sel operands, encode i = .op sel operands → sel < 14

theorem SelectorLegal.symOn : SelectorLegal.Statement .symOn := by
  intro sel operands h
  cases h

theorem SelectorLegal.symOff : SelectorLegal.Statement .symOff := by
  intro sel operands h
  cases h

theorem SelectorLegal.word (w : Word) : SelectorLegal.Statement (.word w) := by
  intro sel operands h
  cases h

theorem SelectorLegal.wordZero : SelectorLegal.Statement .wordZero := by
  intro sel operands h
  cases h

theorem SelectorLegal.encode (bits : List Bool) (width : Nat) : SelectorLegal.Statement (.encode bits width) := by
  intro sel operands h
  cases h
  decide

theorem SelectorLegal.start (f : BitVec 32) (p : Nat) : SelectorLegal.Statement (.start f p) := by
  intro sel operands h
  cases h
  decide

theorem SelectorLegal.enq (w : Word) : SelectorLegal.Statement (.enq w) := by
  intro sel operands h
  cases h
  decide

theorem SelectorLegal.flush : SelectorLegal.Statement .flush := by
  intro sel operands h
  cases h
  decide

theorem SelectorLegal.tickPull : SelectorLegal.Statement .tickPull := by
  intro sel operands h
  cases h
  decide

theorem SelectorLegal.tickShift : SelectorLegal.Statement .tickShift := by
  intro sel operands h
  cases h
  decide

theorem SelectorLegal.tickStarve : SelectorLegal.Statement .tickStarve := by
  intro sel operands h
  cases h
  decide

theorem SelectorLegal.ctlBegin : SelectorLegal.Statement .ctlBegin := by
  intro sel operands h
  cases h
  decide

theorem SelectorLegal.ctlSend : SelectorLegal.Statement .ctlSend := by
  intro sel operands h
  cases h
  decide

theorem SelectorLegal.ctlEndPass : SelectorLegal.Statement .ctlEndPass := by
  intro sel operands h
  cases h
  decide

theorem SelectorLegal.ctlToFlush : SelectorLegal.Statement .ctlToFlush := by
  intro sel operands h
  cases h
  decide

theorem SelectorLegal.ctlToCool : SelectorLegal.Statement .ctlToCool := by
  intro sel operands h
  cases h
  decide

theorem SelectorLegal.ctlCoolDone : SelectorLegal.Statement .ctlCoolDone := by
  intro sel operands h
  cases h
  decide

theorem SelectorLegal.fbToggle : SelectorLegal.Statement .fbToggle := by
  intro sel operands h
  cases h
  decide

theorem SelectorLegal.fbIdle : SelectorLegal.Statement .fbIdle := by
  intro sel operands h
  cases h
  decide

end Sys2Proof.Laws
end

