-- ==== Sys2Proof/Laws/Schedule.lean ====
section
/-! SUPPORT. The open interleaving is fair: both contexts get turns for ever, whatever its run lengths; the tick that the
state selects completes; runs of steps compose. -/

namespace Sys2Proof

theorem Turn.agent_eq_seq {t : Turn} : t.agent = .seq ↔ t.ctlLeft = 0 := by
  unfold Turn.agent
  split <;> simp_all

/-- After the turns that are left to the other agents, it is the sequencer's. -/
theorem turnAt_seq (f g : Nat → Nat) :
    ∀ (c n : Nat), (turnAt f g n).ctlLeft = c → (turnAt f g (n + c)).agent = .seq
  | 0, _, h => Turn.agent_eq_seq.mpr h
  | c + 1, n, h => by
    rw [Nat.add_comm c, ← Nat.add_assoc]
    refine turnAt_seq f g c (n + 1) ?_
    simp [turnAt, Turn.next, h]

/-- After the ticks that are left in a round, it is another agent's turn. -/
theorem turnAt_ctl (f g : Nat → Nat) :
    ∀ (q n : Nat), (turnAt f g n).ctlLeft = 0 → (turnAt f g n).seqLeft = q → (turnAt f g (n + q + 1)).agent = .ctl
  | 0, n, h, hq => by simp [turnAt, Turn.next, h, hq, Turn.agent]
  | q + 1, n, h, hq => by
    rw [Nat.add_comm q, ← Nat.add_assoc]
    exact turnAt_ctl f g q (n + 1) (by simp [turnAt, Turn.next, h, hq]) (by simp [turnAt, Turn.next, h, hq])

theorem openSchedule_seq_after (n : Nat) : ∃ m, n ≤ m ∧ Config.openSchedule m = .seq :=
  ⟨_, Nat.le_add_right .., turnAt_seq _ _ _ n rfl⟩

theorem openSchedule_ctl_after (n : Nat) : ∃ m, n ≤ m ∧ Config.openSchedule m = .ctl := by
  obtain ⟨m, hm, h⟩ := openSchedule_seq_after n
  exact ⟨_, by omega, turnAt_ctl _ _ _ m (Turn.agent_eq_seq.mp h) rfl⟩

namespace Machine

/-- The tick step that the sequencer's table selects completes, and it is the tick. -/
theorem exec_nextTick {s : State} (hf : s.fault = none) (hs : s.started = true) :
    exec (nextTick s) s = .next (tick s) := by
  unfold nextTick
  split
  case isFalse h => exact execTickShift_next.mpr ⟨hf, hs, by simpa using h, rfl⟩
  case isTrue h =>
    split
    case isTrue hq => exact execTickStarve_next.mpr ⟨hf, hs, h, by simpa [State.fifoEmpty] using hq, rfl⟩
    case isFalse hq => exact execTickPull_next.mpr ⟨hf, hs, h, by simpa [State.fifoEmpty] using hq, rfl⟩

theorem runSteps_add : ∀ (m n : Nat) (s t : State), runSteps m s = .next t → runSteps (m + n) s = runSteps n t
  | 0, n, s, t, h => by cases h; rw [Nat.zero_add]
  | m + 1, n, s, t, h => by
    rw [Nat.add_right_comm]
    simp only [runSteps] at h ⊢
    cases hs : step s with
    | next u => rw [hs] at h; exact runSteps_add m n u t h
    | fault f => rw [hs] at h; cases h
    | refused f => rw [hs] at h; cases h

end Machine

end Sys2Proof
end

