-- ==== Sys2Proof/Laws/Streams.lean ====
section
/-! SUPPORT. The bits of words, of the FIFO and of the shift register, as the tick moves them. -/

namespace Sys2Proof.Machine

@[simp] theorem wordBits_length (w : Word) : (wordBits w).length = 32 := by simp [wordBits]

@[simp] theorem unpackWords_nil : unpackWords [] = [] := rfl

@[simp] theorem unpackWords_cons (w : Word) (ws : List Word) :
    unpackWords (w :: ws) = wordBits w ++ unpackWords ws := by simp [unpackWords]

@[simp] theorem unpackWords_append (a b : List Word) : unpackWords (a ++ b) = unpackWords a ++ unpackWords b := by
  simp [unpackWords]

theorem unpackWords_length : ∀ ws : List Word, (unpackWords ws).length = 32 * ws.length
  | [] => rfl
  | w :: ws => by simp [unpackWords_length ws]; omega

theorem osrBits_length (s : State) : s.osrBits.length = W - s.cnt := by simp [State.osrBits]

theorem osrBits_of_empty {s : State} (h : s.osrEmpty = true) : s.osrBits = [] := by
  have : W - s.cnt = 0 := by simp [State.osrEmpty] at h; omega
  simp [State.osrBits, this]

/-- A word shifted right once has lost its bit 0 and nothing else. -/
theorem bits_shift (w : Word) (n : Nat) :
    (List.range (n + 1)).map w.getLsbD = w.getLsbD 0 :: (List.range n).map (w >>> 1).getLsbD := by
  rw [List.range_succ_eq_map]
  simp [Function.comp_def, BitVec.getLsbD_ushiftRight, Nat.add_comm]

/-- Pulling a word puts its bit 0 on the line and its other 31 bits in the shift register. -/
theorem wordBits_pulled (w : Word) (rest : List Word) (s : State) :
    wordBits w = w.getLsbD 0 :: (pulled w rest s).osrBits := by
  have h := bits_shift w 31
  simpa [wordBits, State.osrBits, pulled] using h

/-- Shifting takes bit 0 out of the shift register and leaves the others. -/
theorem osrBits_shifted {s : State} (h : s.osrEmpty = false) :
    s.osrBits = s.osr.getLsbD 0 :: (shifted s).osrBits := by
  have hc : W - s.cnt = (W - (s.cnt + 1)) + 1 := by simp [State.osrEmpty] at h; omega
  have hb := bits_shift s.osr (W - (s.cnt + 1))
  simp only [State.osrBits, hc, hb]
  simp [shifted]

end Sys2Proof.Machine
end

