-- ==== Sys2Proof/Tests/Slice0.lean ====
section
/-! SUPPORT. The model's own tests: the ill-formed terms, the decoder on words written out from the spec, the spec's test
vectors (95_test_vectors.md, whose ids stand in the comments), and, for each obligation, operands that meet its
hypotheses. -/

namespace Sys2Proof.Tests

open Sys2Proof Sys2Proof.Machine

set_option maxRecDepth 20000

/-! ### A small machine -/

/-- The instance of 95_test_vectors.md. -/
def cfg : Config where
  wordWidth := 32
  signalLength := 4
  streamLength := 1
  tSym := ⟨1, 2500⟩
  flushWords := 1
  cooldown := ⟨3, 1⟩
  feedbackDelay := ⟨0, 1⟩
  freqHz := 2500#32
  outPin := 5
  repeatCount := 2
  cooldownTicks := 7500
  feedbackTicks := 0
  fifoDepth := 4
  pinCount := 30
  pinsAvailable := List.range 30
  fSys := 125000000
  divMax := 65535
  starvePolicy := .holdLast

/-- The 4-bit sequence of the spec's example. -/
def bits4 : List Bool := [true, false, true, true]

/-- Power-on of that instance. -/
def off : State := State.powerOn cfg bits4

/-- After boot. -/
def on : State := { off with ws := [0x0000000D#32], wsStored := true, cfgFreq := 2500#32, cfgPin := 5, started := true, line := .low }

/-- After boot and one `ENQ`. -/
def oneWord : State := { on with fifo := [0x0000000D#32], enqs := [0x0000000D#32] }

/-- A started sequencer with this FIFO and this shift register. -/
def seq (fifo : List Word) (osr : Word) (cnt : Nat) (line : Level) : State :=
  { on with fifo := fifo, osr := osr, cnt := cnt, line := line }

/-- The controller of 95_test_vectors.md 2.4, with an empty FIFO. -/
def ctl (state : CtlState) (r j : Nat) : State :=
  { on with ws := [0x53535353#32, 0x53535353#32, 0x00000027#32], ctl := state, r := r, j := j }

/-- The state an outcome goes on with; power-on where it stops. -/
def after (o : Result) : State :=
  match o with
  | .next t => t
  | .fault _ => off
  | .refused _ => off

/-- The sequencer's visible state, as the spec's tables list it. -/
def seqView (s : State) : List Word × Word × Nat × Level := (s.fifo, s.osr, s.cnt, s.line)

/-- The controller's visible state and its calls. -/
def ctlView (s : State) : CtlState × Nat × Nat × List Word × List FbCall := (s.ctl, s.r, s.j, s.fifo, s.fb)

/-! ### Ill-formed terms (R109, R110, R140) -/

theorem test_wf_encode_width_zero :
    Instr.wellFormed (.encode [true] 0) = false ∧ Instr.wellFormed (.encode [true] 1) = true := by decide

theorem test_wf_enq_zero :
    Instr.wellFormed (.enq 0#32) = false ∧ Instr.wellFormed (.enq 1#32) = true := by decide

theorem test_wf_word_zero :
    Instr.wellFormed (.word 0#32) = false ∧ Instr.wellFormed (.word 1#32) = true := by decide

/-! ### Decoding, each constructor from its row's encoding (R101, R102, R110) -/

theorem test_decode_symbols :
    decode (.sym 1#1) = some .symOn ∧ decode (.sym 0#1) = some .symOff := by decide

theorem test_decode_word :
    decode (.word 0x80000001#32) = some (.word 0x80000001#32) ∧ decode (.word 0x00000000#32) = some .wordZero := by decide

theorem test_decode_encode :
    decode (.op 0 [8, 1, 0, 1, 1]) = some (.encode [true, false, true, true] 8) ∧ decode (.op 0 [8, 2]) = none := by decide

theorem test_decode_start :
    decode (.op 1 [2500, 5]) = some (.start 2500#32 5) ∧ decode (.op 1 [4294967296, 5]) = none := by decide

theorem test_decode_enq :
    decode (.op 2 [13]) = some (.enq 0x0000000D#32) ∧ decode (.op 2 [4294967295]) = some (.enq 0xFFFFFFFF#32) := by decide

theorem test_decode_flush :
    decode (.op 2 [0]) = some .flush ∧ decode (.op 2 []) = none := by decide

theorem test_decode_ticks :
    decode (.op 3 []) = some .tickPull ∧ decode (.op 4 []) = some .tickShift ∧ decode (.op 5 []) = some .tickStarve := by decide

theorem test_decode_ctl :
    decode (.op 6 []) = some .ctlBegin ∧ decode (.op 7 []) = some .ctlSend ∧ decode (.op 8 []) = some .ctlEndPass ∧
      decode (.op 9 []) = some .ctlToFlush ∧ decode (.op 10 []) = some .ctlToCool ∧ decode (.op 11 []) = some .ctlCoolDone := by decide

theorem test_decode_fb :
    decode (.op 12 []) = some .fbToggle ∧ decode (.op 13 []) = some .fbIdle ∧ decode (.op 3 [0]) = none := by decide

theorem test_decode_reserved :
    decode (.op 14 []) = none ∧ decode (.op 15 []) = none := by decide

theorem test_table_rows :
    decodeTableWord 1 1 = some .symOn ∧ decodeTableWord 1 0 = some .symOff ∧ decodeTableWord 8 1 = some (.start 0#32 0) ∧
      decodeTableWord 8 2 = some .flush ∧ decodeTableWord 32 0xFFFFFFFF = some (.word 0xFFFFFFFF#32) ∧
      decodeTableWord 32 0 = some .wordZero ∧ decodeTableWord 8 14 = none := by decide

/-! ### Encoder vectors -/

/-- E4, E6. -/
theorem test_encode_value :
    packBits 32 bits4 = [0x0000000D] ∧ packBits 32 (List.replicate 31 false ++ [true]) = [0x80000000] := by decide

/-- E13, E14. -/
theorem test_encode_widths :
    packBits 8 [true, false, true, true, false, false, false, true, true] = [0x8D, 0x01] ∧ packBits 1 [true, false, true] = [1, 0, 1] := by decide

/-- E8, E1. -/
theorem test_encode_chunks :
    packBits 32 (List.replicate 32 false ++ [true]) = [0, 1] ∧ packBits 32 [] = [] := by decide

/-- K2. -/
theorem test_unpack :
    unpack 8 [0x8D, 0x01] = [true, false, true, true, false, false, false, true, true] ++ List.replicate 7 false := by decide

/-- E4, E17. -/
theorem test_encode_operation :
    exec (.encode bits4 32) on = .next { on with encResult := [0x0000000D] } ∧ exec (.encode bits4 0) off = .refused .widthZero := by
  and_intros <;> first | decide | rfl

/-- R262 step 3. -/
theorem test_boot_encode_stores :
    exec (.encode bits4 32) off = .next { off with encResult := [0x0000000D], ws := [0x0000000D#32], wsStored := true } := rfl

/-! ### START vectors -/

/-- A1, A10. -/
theorem test_start :
    exec (.start 2500#32 5) off = .next { off with started := true, cfgFreq := 2500#32, cfgPin := 5, line := .low } ∧
      exec (.start 2500#32 5) on = .refused .alreadyStarted := by
  and_intros <;> first | decide | rfl

/-- A4, A5, A6, A8. -/
theorem test_start_errors :
    exec (.start 2500#32 30) off = .next { off with fault := some ⟨true, false⟩ } ∧
      exec (.start 2501#32 5) off = .next { off with fault := some ⟨false, true⟩ } ∧
      exec (.start 1000#32 5) off = .next { off with fault := some ⟨false, true⟩ } ∧
      exec (.start 0#32 31) off = .next { off with fault := some ⟨true, true⟩ } := by
  and_intros <;> first | decide | rfl

/-- A9. -/
theorem test_start_smallest_divisor :
    (after (exec (.start 125000000#32 5) off)).started = true := by decide

/-! ### ENQ and FLUSH vectors -/

/-- Q2, Q3. -/
theorem test_enq :
    (after (exec (.enq 4#32) (seq [1#32, 2#32, 3#32] 0#32 32 .low))).fifo = [1#32, 2#32, 3#32, 4#32] ∧
      exec (.enq 5#32) (seq [1#32, 2#32, 3#32, 4#32] 0#32 32 .low) = .next (seq [1#32, 2#32, 3#32, 4#32] 0#32 32 .low) := by
  and_intros <;> first | decide | rfl

/-- Q6. -/
theorem test_enq_refused :
    exec (.enq 1#32) off = .refused .notStarted ∧ exec .flush off = .refused .notStarted := by
  and_intros <;> first | decide | rfl

/-- Q4, Q5. -/
theorem test_flush :
    (after (exec .flush (seq [1#32, 2#32, 3#32] 0#32 32 .low))).enqs = [0#32] ∧
      exec .flush (seq [1#32, 2#32, 3#32, 4#32] 0#32 32 .low) = .next (seq [1#32, 2#32, 3#32, 4#32] 0#32 32 .low) := by
  and_intros <;> first | decide | rfl

/-! ### TICK vectors -/

/-- T1, T8. -/
theorem test_pull :
    seqView (after (exec .tickPull (seq [0x0000000D#32] 0#32 32 .low))) = ([], 6#32, 1, .high) ∧
      seqView (after (exec .tickPull (seq [0xFFFFFFFF#32, 0#32] 0#32 32 .low))) = ([0#32], 0x7FFFFFFF#32, 1, .high) := by decide

/-- T11, T14. -/
theorem test_pull_low :
    seqView (after (exec .tickPull (seq [0x80000000#32] 0#32 32 .low))) = ([], 0x40000000#32, 1, .low) ∧
      exec .tickPull off = .refused .notStarted := by
  and_intros <;> first | decide | rfl

/-- T2, T12. -/
theorem test_shift :
    seqView (after (exec .tickShift (seq [] 6#32 1 .high))) = ([], 3#32, 2, .low) ∧
      seqView (after (exec .tickShift (seq [] 1#32 31 .low))) = ([], 0#32, 32, .high) := by decide

/-- T13. -/
theorem test_shift_ignores_fifo :
    seqView (after (exec .tickShift (seq [5#32] 2#32 30 .low))) = ([5#32], 1#32, 31, .low) := by decide

/-- T7, HoldLast. -/
theorem test_starve :
    after (exec .tickStarve (seq [] 0#32 32 .high)) = { seq [] 0#32 32 .high with ticks := 1, wave := [.high] } := by decide

/-- T7, IdleLow. -/
theorem test_starve_idle_low :
    (after (exec .tickStarve { seq [] 0#32 32 .high with cfg := { cfg with starvePolicy := .idleLow } })).line = .low := by decide

/-! ### Symbols and words -/

/-- O3 (T1), T2. -/
theorem test_sym_on :
    (after (exec .symOn (seq [0x0000000D#32] 0#32 32 .low))).line = .high ∧ exec .symOn (seq [] 6#32 1 .high) = .refused .symbolNotNext := by
  and_intros <;> first | decide | rfl

/-- O5 (T2), T6. -/
theorem test_sym_off :
    (after (exec .symOff (seq [] 6#32 1 .high))).line = .low ∧ exec .symOff (seq [] 0#32 32 .low) = .refused .symbolNotNext := by
  and_intros <;> first | decide | rfl

/-- R181's example, R189. -/
theorem test_word :
    (after (exec (.word 0x0000000D#32) (seq [0x0000000D#32] 0#32 32 .low))).wave = [.high, .low, .high, .high] ++ List.replicate 28 .low := by decide

/-- K4. -/
theorem test_word_zero :
    (after (exec .wordZero (seq [0#32] 0#32 32 .high))).wave = List.replicate 32 .low := by decide

/-! ### Controller vectors -/

/-- C1. -/
theorem test_ctl_begin :
    ctlView (after (exec .ctlBegin (ctl .idle 0 0))) = (.transmitting, 0, 0, [], []) := by decide

/-- C3, C4. -/
theorem test_ctl_send :
    ctlView (after (exec .ctlSend (ctl .transmitting 0 2))) = (.transmitting, 0, 3, [0x27#32], []) ∧
      exec .ctlSend { ctl .transmitting 0 1 with fifo := List.replicate 4 1#32 } =
        .next { ctl .transmitting 0 1 with fifo := List.replicate 4 1#32 } := by
  and_intros <;> first | decide | rfl

/-- C13, C14. -/
theorem test_ctl_send_delay :
    exec .ctlSend { ctl .transmitting 1 0 with cfg := { cfg with feedbackTicks := 100 }, fbwait := 99 } =
        .next { ctl .transmitting 1 0 with cfg := { cfg with feedbackTicks := 100 }, fbwait := 99 } ∧
      ctlView (after (exec .ctlSend { ctl .transmitting 1 0 with cfg := { cfg with feedbackTicks := 100 }, fbwait := 100 })) =
        (.transmitting, 1, 1, [0x53535353#32], []) := by
  and_intros <;> first | decide | rfl

/-- C6. -/
theorem test_ctl_end_pass :
    ctlView (after (exec .ctlEndPass (ctl .transmitting 1 3))) = (.transmitting, 2, 0, [], [.toggle]) := by decide

/-- C15. -/
theorem test_ctl_to_flush :
    ctlView (after (exec .ctlToFlush { ctl .transmitting 2 0 with cfg := { cfg with feedbackTicks := 100 } })) =
        (.flushing, 2, 0, [0#32], []) := by decide

/-- C9. -/
theorem test_ctl_to_cool :
    ctlView (after (exec .ctlToCool (ctl .flushing 2 0))) = (.cooldown, 2, 0, [], [.idle]) := by decide

/-- C10, C12. -/
theorem test_ctl_cool_done :
    exec .ctlCoolDone { ctl .cooldown 2 0 with cool := 7499 } = .next { ctl .cooldown 2 0 with cool := 7499 } ∧
      ctlView (after (exec .ctlCoolDone { ctl .cooldown 2 0 with cool := 9000 })) = (.idle, 0, 0, [], []) := by
  and_intros <;> first | decide | rfl

/-- R212, R213. -/
theorem test_fb :
    (after (exec .fbToggle on)).fb = [.toggle] ∧ (after (exec .fbIdle on)).fb = [.idle] := by decide

/-- R77: from reset only BOOT's operations step. -/
theorem test_fb_before_start :
    exec .fbToggle off = .refused .notStarted ∧ exec .fbIdle off = .refused .notStarted := ⟨rfl, rfl⟩

/-- R182: the level is on the pin `cfg_pin` and on no other, and on none before `START`. -/
theorem test_pin_level :
    (seq [] 0#32 32 .high).pinLevel 5 = .high ∧ (seq [] 0#32 32 .high).pinLevel 4 = .z ∧ off.pinLevel 0 = .z := by decide

/-! ### One step of the whole machine -/

/-- R262 step 3. -/
theorem test_step_boot :
    step off = .next { off with encResult := [0x0000000D], ws := [0x0000000D#32], wsStored := true, sched := 1 } := rfl

theorem test_step_fetch_word :
    step (on.withFetchWord 8 6) = exec .ctlBegin on ∧ step (on.withFetchWord 8 14) = .refused .reservedEncoding := by
  and_intros <;> first | decide | rfl

/-- R153: a held line waits and a tick is taken. -/
theorem test_step_held :
    step { seq (List.replicate 4 1#32) 0#32 32 .low with trace := [.op 2 [5]] } =
      exec .tickPull { seq (List.replicate 4 1#32) 0#32 32 .low with trace := [.op 2 [5]] } := rfl

/-! ### Operands that meet each obligation's hypotheses -/

theorem witness_DecodeOfEncodeGivesBack :
    Instr.wellFormed (.encode bits4 1) = true ∧ Instr.wellFormed (.enq 0xFFFFFFFF#32) = true ∧ Instr.wellFormed .fbIdle = true := by decide

theorem witness_EncodeOfDecodeGivesLine :
    decode (.op 0 [8, 1, 0]) = some (.encode [true, false] 8) ∧ decode (.op 13 []) = some .fbIdle := by decide

theorem witness_ReservedSelectorsAreRefused :
    14 ≤ 14 ∧ { on with trace := [.op 14 []] }.trace = .op 14 [] :: [] := by decide

theorem witness_EncodedWordIsSumOfBits :
    1 ≤ 1 ∧ 2 < ceilDiv [true, false, true].length 1 ∧ (packBits 1 [true, false, true])[2]? = some 1 := by decide

theorem witness_EncodedLengthIsCeiling :
    1 ≤ 32 ∧ (packBits 32 (List.replicate 33 true)).length = 2 := by decide

theorem witness_EncodeUnpackRoundTrip :
    1 ≤ 8 ∧ ∀ x ∈ [255, 0], x < 2 ^ 8 := by decide

theorem witness_DomainStreamShape :
    (List.replicate 333 true).length = 333 ∧ 9 ≤ 9 ∧ 31 < 32 ∧ 0 ≤ 12 ∧ 13 ≤ 31 ∧ 31 ≤ 31 := ⟨List.length_replicate, by decide⟩

theorem witness_EncodeInjectiveAtOneLength :
    1 ≤ 1 ∧ [true, false].length = [true, false].length ∧ packBits 1 [true, false] = packBits 1 [true, false] := by decide

theorem witness_PassEndsLowUnlessFull :
    1 ≤ 32 ∧ bits4.length % 32 ≠ 0 ∧ (List.replicate 32 true).length % 32 = 0 ∧ 31 % 32 ≠ 0 := by decide

theorem witness_EncodeCompletes :
    off.fault = none ∧ off.wsStored = false ∧ 1 ≤ 1 ∧ ¬(off.wsStored = false ∧ 1 = 32 ∧ bits4 = off.bits) := by decide

theorem witness_StartCompletes :
    off.fault = none ∧ off.started = false ∧ 29 < off.cfg.pinCount ∧ 29 ∈ off.cfg.pinsAvailable ∧
      1 ≤ (125000000#32).toNat ∧ off.cfg.fSys % (125000000#32).toNat = 0 ∧ 1 ≤ off.cfg.fSys / (125000000#32).toNat ∧
      off.cfg.fSys / (125000000#32).toNat ≤ off.cfg.divMax := by decide

theorem witness_StartTakesConfigError :
    off.fault = none ∧ off.started = false ∧ ¬(30 < off.cfg.pinCount ∧ 30 ∈ off.cfg.pinsAvailable) ∧
      ¬(1 ≤ (0#32).toNat ∧ off.cfg.fSys % (0#32).toNat = 0) := by decide

theorem witness_NothingStepsAfterFault :
    { off with fault := some ⟨true, false⟩ }.fault = some ⟨true, false⟩ ∧ { off with fault := some ⟨true, false⟩ }.trace = [] := by decide

theorem witness_MisuseIsRefused :
    (off.fault = none ∧ off.started = false) ∧ (on.fault = none ∧ on.started = true) ∧ { off with fault := some ⟨true, true⟩ }.fault ≠ none := by decide

theorem witness_EnqAppendsOrHolds :
    off.started = false ∧ { off with fault := some ⟨true, false⟩ }.fault ≠ none ∧ on.fault = none ∧ on.started = true ∧ (seq (List.replicate 3 1#32) 0#32 32 .low).fifo.length < cfg.fifoDepth ∧
      (seq (List.replicate 4 1#32) 0#32 32 .low).fifo.length = (seq (List.replicate 4 1#32) 0#32 32 .low).cfg.fifoDepth := by decide

theorem witness_OnlyPullEndsHold :
    exec .tickPull (seq (List.replicate 4 1#32) 0#32 32 .low) = .next (tick (seq (List.replicate 4 1#32) 0#32 32 .low)) ∧ (seq (List.replicate 4 1#32) 0#32 32 .low).fifoFull = true ∧ (tick (seq (List.replicate 4 1#32) 0#32 32 .low)).fifoFull = false := by
  and_intros <;> first | decide | rfl

theorem witness_HoldEndsWithinOneWord :
    ({ seq (List.replicate 4 1#32) 0#32 32 .low with enqs := List.replicate 4 1#32 }).Inv ∧ on.started = true ∧
      { seq (List.replicate 4 1#32) 0#32 32 .low with enqs := List.replicate 4 1#32 }.fifo.length = cfg.fifoDepth := by decide

theorem witness_HoldEndsWithinOneWord_longest :
    ({ seq (List.replicate 4 0#32) 0#32 1 .low with enqs := List.replicate 5 0#32, emit := [false], ticks := 1, wave := [.low] }).Inv := by decide

theorem witness_ExactlyOneTickStep :
    on.fault = none ∧ on.started = true ∧ (seq [1#32] 0#32 31 .low).cnt < W ∧ (seq [1#32] 0#32 32 .low).cnt = W ∧
      (seq [1#32] 0#32 32 .low).fifo = 1#32 :: [] ∧ on.cnt = W ∧ on.fifo = [] ∧ on.cfg.starvePolicy = .holdLast := by decide

theorem witness_TickPullCompletes :
    (seq [13#32] 0#32 32 .low).fault = none ∧ (seq [13#32] 0#32 32 .low).started = true ∧
      (seq [13#32] 0#32 32 .low).cnt = W ∧ (seq [13#32] 0#32 32 .low).fifo = 13#32 :: [] := by decide

theorem witness_TickShiftCompletes :
    on.fault = none ∧ on.started = true ∧ (1 ≤ 1 ∧ (seq [] 6#32 1 .high).cnt < W) ∧ 1 ≤ 31 ∧ (seq [] 1#32 31 .low).cnt < W := by decide

theorem witness_TickStarveCompletes :
    on.fault = none ∧ on.started = true ∧ on.cnt = W ∧ on.fifo = [] ∧ (on.cfg.starvePolicy = .holdLast → Level.low = on.line) ∧
      (on.cfg.starvePolicy = .idleLow → Level.low = .low) := by decide

theorem witness_SequencerEmitsWhatIsPending :
    on.Inv ∧ on.pending = [] ∧ oneWord.Inv ∧ 32 ≤ oneWord.pending.length :=
  ⟨by decide, rfl, by decide, by decide⟩

theorem witness_InFlightBoundAndLatency :
    on.Inv ∧ on.started = true ∧ on.fifo.length < on.cfg.fifoDepth ∧ exec (.enq 13#32) on = .next (pushWord 13#32 on) ∧ 31 < W := by
  and_intros <;> first | decide | rfl

theorem witness_ConfigurationNeverChanges :
    exec .ctlBegin on = .next { on with ctl := .transmitting } ∧ on.started = true ∧ on.wsStored = true := by
  and_intros <;> first | decide | rfl

theorem witness_SymbolIsEmittedAtItsTick :
    on.fault = none ∧ on.started = true ∧ (seq [] 1#32 31 .low).cnt < W ∧ (seq [] 1#32 31 .low).osr.getLsbD 0 = true ∧
      (seq [] 2#32 30 .low).osr.getLsbD 0 ≠ true ∧ (seq [13#32] 0#32 32 .low).fifo = 13#32 :: [] ∧ (13#32).getLsbD 0 = true ∧
      (seq [12#32] 0#32 32 .low).cnt = W ∧ (seq [12#32] 0#32 32 .low).fifo = 12#32 :: [] ∧ (12#32).getLsbD 0 ≠ true ∧
      on.cnt = W ∧ on.fifo = [] := by decide

theorem witness_WordOccupiesItsTicks :
    on.fault = none ∧ on.started = true ∧ (seq [13#32] 0#32 32 .low).cnt = W ∧ (seq [13#32] 0#32 32 .low).fifo = 13#32 :: [] ∧
      (seq [0#32] 0#32 32 .low).fifo = 0#32 :: [] ∧ (seq [13#32] 0#32 31 .low).cnt < W ∧ on.fifo = [] ∧ 12#32 ≠ 13#32 := by decide

theorem witness_LineTransitionTable_pull :
    exec .tickPull (seq [13#32] 0#32 32 .low) = .next (tick (seq [13#32] 0#32 32 .low)) := rfl

theorem witness_LineTransitionTable_shift :
    exec .tickShift (seq [] 6#32 1 .high) = .next (tick (seq [] 6#32 1 .high)) := rfl

theorem witness_LineTransitionTable_starve :
    exec .tickStarve (seq [] 0#32 32 .high) = .next (tick (seq [] 0#32 32 .high)) := rfl

theorem witness_LineTransitionTable_symOn :
    exec .symOn (seq [13#32] 0#32 32 .low) = .next (tick (seq [13#32] 0#32 32 .low)) := rfl

theorem witness_LineTransitionTable_symOff :
    exec .symOff (seq [] 6#32 1 .high) = .next (tick (seq [] 6#32 1 .high)) := rfl

theorem witness_LineTransitionTable_word :
    exec (.word 13#32) (seq [13#32] 0#32 32 .low) = .next (ticksN W (seq [13#32] 0#32 32 .low)) ∧
      exec .wordZero (seq [0#32] 0#32 32 .low) = .next (ticksN W (seq [0#32] 0#32 32 .low)) := by
  and_intros <;> first | decide | rfl

theorem witness_LineTransitionTable_start :
    exec (.start 2500#32 5) off = .next (bindSequencer 2500#32 5 off) ∧
      exec (.start 2500#32 30) off = .next (takeConfigError ⟨true, false⟩ off) := by
  and_intros <;> first | decide | rfl

theorem witness_LineTransitionTable_other :
    exec .fbIdle on = .next (callFb .idle on) ∧ exec (.enq 1#32) on = .next (pushWord 1#32 on) := by
  and_intros <;> first | decide | rfl

theorem witness_FlushReturnsLineToLow :
    (seq [0#32] 0#32 32 .high).cnt = W ∧ (seq [0#32] 0#32 32 .high).fifo = 0#32 :: [] ∧ 1 ≤ 32 ∧ 32 ≤ 32 ∧
      ∀ b ∈ (unpackWords []).take (33 - 32), b = false := by decide

theorem witness_FlushReturnsLineToLow_interleaved :
    ReachableFrom (fun _ => true) (tick (seq [0#32] 0#32 32 .high)) (tick (tick (seq [0#32] 0#32 32 .high))) ∧
      ∀ b ∈ (tick (tick (seq [0#32] 0#32 32 .high))).emit.drop (tick (seq [0#32] 0#32 32 .high)).emit.length, b = false :=
  ⟨.op .symOff _ _ .here rfl rfl, by decide⟩

theorem witness_StarvePoliciesAgreeAfterLow :
    on.fault = none ∧ on.started = true ∧ on.cnt = W ∧ on.fifo = [] ∧ on.line = .low ∧ (seq [] 0#32 32 .high).line = .high := by decide

theorem witness_LineIsLowAfterFlush :
    on.Inv ∧ on.fifo.length < on.cfg.fifoDepth ∧ exec .flush on = .next (pushWord 0#32 on) ∧ W * on.cfg.fifoDepth + (W - 1) ≤ 159 := by
  and_intros <;> first | decide | rfl

theorem witness_OtherAgentsLeaveSequencerAlone :
    sequencerOp .flush = false ∧ exec .flush on = .next (pushWord 0#32 on) ∧ sequencerOp .fbIdle = false ∧
      exec .fbIdle on = .next (callFb .idle on) := by
  and_intros <;> first | decide | rfl

theorem witness_TicksReadSequencerOnly :
    on.cfg.starvePolicy = { on with ctl := .cooldown, ticks := 7 }.cfg.starvePolicy ∧ on.fifo = { on with ctl := .cooldown, ticks := 7 }.fifo ∧
      on.osr = { on with ctl := .cooldown, ticks := 7 }.osr ∧ on.cnt = { on with ctl := .cooldown, ticks := 7 }.cnt ∧
      on.line = { on with ctl := .cooldown, ticks := 7 }.line ∧ on.emit = { on with ctl := .cooldown, ticks := 7 }.emit ∧
      on.wave = { on with ctl := .cooldown, ticks := 7 }.wave := by decide

theorem witness_PullAndPushInEitherOrder :
    on.fault = none ∧ on.started = true ∧ on.cnt = W ∧ (seq [1#32] 0#32 32 .low).fifo = 1#32 :: [] ∧
      (seq [1#32] 0#32 32 .low).fifo.length < cfg.fifoDepth ∧ (seq (List.replicate 4 1#32) 0#32 32 .low).fifo = 1#32 :: List.replicate 3 1#32 ∧
      (seq (List.replicate 4 1#32) 0#32 32 .low).fifo.length = (seq (List.replicate 4 1#32) 0#32 32 .low).cfg.fifoDepth ∧ on.fifo = [] ∧ 1 ≤ on.cfg.fifoDepth := by decide

theorem witness_CtlBeginCompletes :
    on.fault = none ∧ on.started = true ∧ on.ctl = .idle ∧ on.wsStored = true ∧ 1 ≤ on.cfg.repeatCount ∧
      { cfg with repeatCount := 0 }.repeatCount = 0 := by decide

theorem witness_CtlSendCompletes :
    on.fault = none ∧ on.started = true ∧ (ctl .transmitting 1 2).ctl = .transmitting ∧ (ctl .transmitting 1 2).r < cfg.repeatCount ∧
      (ctl .transmitting 1 2).ws[(ctl .transmitting 1 2).j]? = some 0x27#32 ∧ cfg.feedbackTicks ≤ (ctl .transmitting 1 2).fbwait ∧
      (ctl .transmitting 1 2).fifo.length < cfg.fifoDepth ∧ (seq (List.replicate 4 1#32) 0#32 32 .low).fifo.length = (seq (List.replicate 4 1#32) 0#32 32 .low).cfg.fifoDepth ∧ 99 < { cfg with feedbackTicks := 100 }.feedbackTicks := by decide

theorem witness_CtlEndPassCompletes :
    (ctl .transmitting 1 3).fault = none ∧ (ctl .transmitting 1 3).started = true ∧ (ctl .transmitting 1 3).ctl = .transmitting ∧
      (ctl .transmitting 1 3).r < (ctl .transmitting 1 3).cfg.repeatCount ∧ (ctl .transmitting 1 3).j = (ctl .transmitting 1 3).ws.length := by decide

theorem witness_CtlToFlushCompletes :
    (ctl .transmitting 2 0).fault = none ∧ (ctl .transmitting 2 0).started = true ∧ (ctl .transmitting 2 0).ctl = .transmitting ∧
      (ctl .transmitting 2 0).r = (ctl .transmitting 2 0).cfg.repeatCount ∧ (ctl .transmitting 2 0).fifo.length < cfg.fifoDepth ∧
      { ctl .transmitting 2 0 with fifo := List.replicate 4 1#32 }.fifo.length = cfg.fifoDepth := by decide

theorem witness_CtlToCoolCompletes :
    (ctl .flushing 2 0).fault = none ∧ (ctl .flushing 2 0).started = true ∧ (ctl .flushing 2 0).ctl = .flushing := by decide

theorem witness_CtlCoolDoneCompletes :
    (ctl .cooldown 2 0).fault = none ∧ (ctl .cooldown 2 0).started = true ∧ (ctl .cooldown 2 0).ctl = .cooldown ∧
      cfg.cooldownTicks ≤ { ctl .cooldown 2 0 with cool := 7500 }.cool ∧ { ctl .cooldown 2 0 with cool := 7499 }.cool < cfg.cooldownTicks := by decide

theorem witness_FeedbackCallsComplete :
    off.fault = none ∧ off.started = false ∧ on.fault = none ∧ on.started = true ∧ on.ctl = .idle := by decide

theorem witness_ControllerTableIsExact :
    off.Inv ∧ on.Inv ∧ nextCtl on = some .ctlBegin ∧ nextCtl off = none :=
  ⟨by decide, by decide, rfl, rfl⟩

theorem witness_BurstPseudoOperation :
    on.fault = none ∧ on.started = true ∧ on.fifo.length + (1 * [1#32, 2#32, 3#32].length + 1) ≤ on.cfg.fifoDepth := by decide

theorem witness_ExecKeepsInvariant :
    on.Inv ∧ exec .tickStarve on = .next (tick on) := by
  and_intros <;> first | decide | rfl

theorem witness_StepKeepsInvariant :
    off.Inv ∧ step off = .next (after (step off)) := by
  and_intros <;> first | decide | rfl

theorem witness_PowerOnHasInvariant :
    cfg.Valid := by decide

theorem witness_StepRunsDecodedLine :
    { on with trace := [.op 6 []] }.trace = .op 6 [] :: [] ∧ decode (.op 6 []) = some .ctlBegin ∧ holds .ctlBegin on = false ∧
      decode (.op 2 [5]) = some (.enq 5#32) ∧ holds (.enq 5#32) (seq (List.replicate 4 1#32) 0#32 32 .low) = true := by decide

theorem witness_StepRunsFetchWord :
    decodeTableWord 8 6 = some .ctlBegin ∧ holds .ctlBegin on = false := by decide

theorem witness_FreeRunningStep :
    off.trace = [] ∧ off.fault = none ∧ (off.started = false ∧ off.wsStored = false) ∧
      (off.started = false ∧ { off with wsStored := true }.wsStored = true) ∧ ({ off with started := true }.started = true ∧ off.wsStored = false) ∧
      (on.trace = [] ∧ on.fault = none ∧ on.started = true ∧ on.wsStored = true) := by decide

theorem witness_FreeRunningStep_fair :
    on.Inv ∧ on.trace = [] ∧ on.started = true ∧ on.wsStored = true ∧ { off with started := true, line := .low }.Inv :=
  ⟨by decide, rfl, rfl, rfl, by decide⟩

theorem witness_BootSequence :
    cfg.Valid ∧ cfg.pinOk cfg.outPin = true ∧ bits4.length = cfg.signalLength ∧
      (∀ b w, Instr.fbToggle ≠ .encode b w) ∧ ∀ f p, Instr.fbToggle ≠ .start f p := ⟨by decide, by decide, rfl, nofun, nofun⟩

theorem witness_BootStopsAtConfigError :
    { cfg with outPin := 30 }.Valid ∧ { cfg with outPin := 30 }.pinOk 30 = false := by decide

theorem witness_SequencerConditions :
    on.Inv ∧ off.Inv := ⟨by decide, by decide⟩

theorem witness_PortsViewTheState :
    on.fault = none ∧ { off with fault := some ⟨true, false⟩ }.fault = some ⟨true, false⟩ ∧ off.line = .z ∧ on.line = .low ∧
      (seq [] 0#32 32 .high).line = .high ∧ on.started = true ∧ 4 ≠ on.cfgPin ∧ off.started = false := by decide

/-! ### Histories -/

/-- The stream of one word, one pass, a wait of one tick each: the shortest burst that sends a word. -/
def brief : State :=
  { on with cfg := { cfg with
      repeatCount := 1, cooldown := ⟨1, 2500⟩, cooldownTicks := 1, feedbackDelay := ⟨1, 2500⟩, feedbackTicks := 1 }
            fbwait := 1 }

/-- The states of one burst of `brief`, one after each of the controller's steps. -/
def brief1 : State := after (exec .ctlBegin brief)
@[inherit_doc brief1] def brief2 : State := after (exec .ctlSend brief1)
@[inherit_doc brief1] def brief3 : State := after (exec .ctlEndPass brief2)
@[inherit_doc brief1] def brief4 : State := after (exec .ctlToFlush brief3)
@[inherit_doc brief1] def brief5 : State := after (exec .ctlToCool brief4)

theorem witness_AcceptedWordsAreBursts :
    cfg.Valid ∧ ReachableFrom controllerOnly (State.powerOn cfg bits4) (after (exec (.start 2500#32 5) off)) := ⟨by decide, .op (.start 2500#32 5) off _ .here rfl rfl⟩

theorem witness_ReachableStatesSatisfyR52 :
    cfg.Valid ∧ Reachable cfg bits4 (after (exec (.start 2500#32 30) off)) := ⟨by decide, .op (.start 2500#32 30) off _ .here rfl rfl⟩

theorem witness_AcceptedWordsAreBursts_step :
    controllerOnly .ctlSend = true ∧ brief1.Inv ∧ brief1.BurstOrder ∧ exec .ctlSend brief1 = .next brief2 :=
  ⟨rfl, by decide, ⟨nofun, 0, rfl⟩, rfl⟩

theorem witness_TickPeriodIsExact :
    cfg.Valid := by decide

theorem witness_OneBurstIsRepeatTimesLengthPlusOne :
    brief.Inv ∧ exec .ctlBegin brief = .next brief1 ∧
      ReachableFrom (fun i => controllerOnly i && decide (i ≠ .ctlToCool ∧ i ≠ .fbToggle ∧ i ≠ .fbIdle)) brief1 brief4 ∧
      exec .ctlToCool brief4 = .next brief5 := ⟨by decide, rfl, .op .ctlToFlush brief3 _ (.op .ctlEndPass brief2 _ (.op .ctlSend brief1 _ .here rfl rfl) rfl rfl)
    rfl rfl, rfl⟩

theorem witness_CooldownIsLowerBound :
    exec .ctlToCool brief4 = .next brief5 ∧ ReachableFrom (fun i => decide (i ≠ .ctlToCool)) brief5 (tick brief5) ∧
      (tick brief5).ctl = .cooldown ∧ exec .ctlCoolDone (tick brief5) = .next (after (exec .ctlCoolDone (tick brief5))) ∧
      (after (exec .ctlCoolDone (tick brief5))).ctl = .idle := ⟨rfl, .op .tickPull brief5 _ .here rfl rfl, rfl, rfl, rfl⟩

/-- `brief` with two passes, after the first. -/
def brief6 : State := { brief2 with cfg := { cfg with feedbackTicks := 1 } }
@[inherit_doc brief6] def brief7 : State := after (exec .ctlEndPass brief6)

theorem witness_FeedbackDelayIsLowerBound :
    exec .ctlEndPass brief6 = .next brief7 ∧ ReachableFrom (fun i => decide (i ≠ .ctlBegin)) brief7 (tick brief7) ∧
      exec .ctlSend (tick brief7) = .next (after (exec .ctlSend (tick brief7))) ∧ (after (exec .ctlSend (tick brief7))).enqs ≠ (tick brief7).enqs := ⟨rfl, .op .tickPull brief7 _ .here rfl rfl, rfl, by decide⟩

end Sys2Proof.Tests
end

section
/-! PROOFS. The encoder (30_encoding.md R73, R103): what a chunk holds, what its value is, and so what word `k` of
`ENCODE` is. -/

namespace Sys2Proof.Machine

theorem chunk_length_le (width k : Nat) (bits : List Bool) : (chunk width k bits).length ≤ width :=
  List.length_take_le ..

/-- Reading past the end of the bits gives `false` on both sides, so a short last chunk needs no case of its own. -/
theorem chunk_getD {width i : Nat} (k : Nat) (bits : List Bool) (hi : i < width) :
    (chunk width k bits).getD i false = bits.getD (k * width + i) false := by
  simp [chunk, List.getD_eq_getElem?_getD, List.getElem?_take_of_lt hi]

theorem chunkValue_lt : ∀ bs : List Bool, chunkValue bs < 2 ^ bs.length
  | [] => by simp [chunkValue]
  | b :: bs => by
    have hb := b.toNat_le
    have hbs := chunkValue_lt bs
    rw [chunkValue, List.length_cons, Nat.pow_succ]
    omega

/-- The places beyond the last bit add nothing, so the sum may run over any number of places that covers the bits. -/
theorem chunkValue_eq_sum : ∀ (bs : List Bool) (width : Nat), bs.length ≤ width →
    chunkValue bs = ∑ i ∈ Finset.range width, (bs.getD i false).toNat * 2 ^ i
  | [], _, _ => by simp [chunkValue]
  | b :: bs, width + 1, h => by
    have ih := chunkValue_eq_sum bs width (Nat.le_of_succ_le_succ h)
    rw [chunkValue, ih, Finset.sum_range_succ', Finset.mul_sum, Nat.add_comm]
    simp [Nat.pow_succ', Nat.mul_left_comm]

theorem packBits_getElem? {width k : Nat} {bits : List Bool} (hk : k < ceilDiv bits.length width) :
    (packBits width bits)[k]? = some (chunkValue (chunk width k bits)) := by
  simp [packBits, hk]

theorem chunkValue_chunk (width k : Nat) (bits : List Bool) :
    chunkValue (chunk width k bits) =
      ∑ i ∈ Finset.range width, (bits.getD (k * width + i) false).toNat * 2 ^ i := by
  rw [chunkValue_eq_sum _ width (chunk_length_le width k bits)]
  exact Finset.sum_congr rfl fun i hi => by rw [chunk_getD k bits (Finset.mem_range.mp hi)]

theorem chunkValue_chunk_lt (width k : Nat) (bits : List Bool) : chunkValue (chunk width k bits) < 2 ^ width :=
  (chunkValue_lt _).trans_le (Nat.pow_le_pow_right Nat.two_pos (chunk_length_le width k bits))

/-- Settles O5: word `k` is the value of chunk `k`, which is the sum and keeps the range. -/
theorem encodedWordIsSumOfBits : Obligations.EncodedWordIsSumOfBits := by
  intro width bits k _ hk
  rw [packBits_getElem? hk]
  refine ⟨congrArg some (chunkValue_chunk width k bits), fun w hw => ?_⟩
  cases hw
  exact chunkValue_chunk_lt width k bits

end Sys2Proof.Machine
end

section
/-! PROOFS. The laws of the encoder (40_encoder.md R132 to R134). One fact per function carries them all: bit `i` of
word `k` of `ENCODE` is bit `k * width + i` of the sequence, and position `k * width + i` of `UNPACK` is bit `i` of
word `k`. Positions past the end read as 0 on both sides. -/

namespace Sys2Proof.Machine

/-! ### Lists and lengths -/

theorem list_ext_getD {α : Type} {l l' : List α} (d : α) (hlen : l.length = l'.length)
    (h : ∀ n, n < l.length → l.getD n d = l'.getD n d) : l = l' := by
  refine List.ext_getElem hlen fun n hn hn' => ?_
  rw [← List.getD_eq_getElem l d hn, ← List.getD_eq_getElem l' d hn']
  exact h n hn

/-- Padding with the value that is read past the end cannot be told from no padding. -/
theorem getD_append_replicate_false (bits : List Bool) (p n : Nat) :
    (bits ++ List.replicate p false).getD n false = bits.getD n false := by
  rcases Nat.lt_or_ge n bits.length with hn | hn
  · exact List.getD_append _ _ _ _ hn
  · rw [List.getD_append_right _ _ _ _ hn, List.getD_eq_default _ _ hn]
    rw [List.getD_eq_getElem?_getD, List.getElem?_replicate]
    split <;> rfl

/-- `ceilDiv n width` words are room for `n` bits, and the last word is not wholly padding. -/
theorem ceilDiv_mul_bounds {width : Nat} (n : Nat) (hw : 1 ≤ width) :
    n ≤ ceilDiv n width * width ∧ ceilDiv n width * width < n + width := by
  have hdiv := Nat.div_add_mod' (n + width - 1) width
  have hmod := Nat.mod_lt (n + width - 1) hw
  rw [ceilDiv]
  omega

theorem ceilDiv_mul_self {width : Nat} (n : Nat) (hw : 1 ≤ width) : ceilDiv (n * width) width = n := by
  rw [ceilDiv, Nat.add_sub_assoc hw, Nat.mul_comm, Nat.mul_add_div hw, Nat.div_eq_of_lt (by omega), Nat.add_zero]

/-! ### `ENCODE` -/

@[simp] theorem packBits_length (width : Nat) (bits : List Bool) :
    (packBits width bits).length = ceilDiv bits.length width := by simp [packBits]

theorem packBits_lt {width : Nat} {bits : List Bool} {w : Nat} (hw : w ∈ packBits width bits) : w < 2 ^ width := by
  obtain ⟨k, _, rfl⟩ := List.mem_map.mp hw
  exact chunkValue_chunk_lt width k bits

theorem testBit_chunkValue : ∀ (bs : List Bool) (i : Nat), (chunkValue bs).testBit i = bs.getD i false
  | [], i => by simp [chunkValue]
  | b :: bs, i => by
    have hbit : chunkValue (b :: bs) = Nat.bit b (chunkValue bs) := by
      rw [chunkValue, Nat.bit_val, Nat.add_comm]
    rw [hbit]
    cases i with
    | zero => rw [Nat.testBit_bit_zero, List.getD_cons_zero]
    | succ i => rw [Nat.testBit_bit_succ, testBit_chunkValue bs i, List.getD_cons_succ]

/-- Bit `i` of word `k` is bit `k * width + i`; a word past the last one would hold only bits past the last one. -/
theorem testBit_packBits {width i : Nat} (bits : List Bool) (k : Nat) (hi : i < width) :
    ((packBits width bits).getD k 0).testBit i = bits.getD (k * width + i) false := by
  rcases Nat.lt_or_ge k (ceilDiv bits.length width) with hk | hk
  · rw [List.getD_eq_getElem?_getD, packBits_getElem? hk, Option.getD_some, testBit_chunkValue, chunk_getD k bits hi]
  · have hroom := (ceilDiv_mul_bounds bits.length (Nat.one_le_of_lt hi)).1
    have hmul := Nat.mul_le_mul_right width hk
    rw [List.getD_eq_default _ _ (by simpa using hk), List.getD_eq_default _ _ (by omega), Nat.zero_testBit]

/-! ### `UNPACK` -/

theorem unpack_cons (width w : Nat) (ws : List Nat) :
    unpack width (w :: ws) = (List.range width).map w.testBit ++ unpack width ws := by simp [unpack]

@[simp] theorem unpack_length (width : Nat) (ws : List Nat) : (unpack width ws).length = ws.length * width := by
  induction ws with
  | nil => simp [unpack]
  | cons w ws ih => simp [unpack_cons, ih, Nat.succ_mul, Nat.add_comm]

theorem unpack_getD {width i : Nat} (hi : i < width) (ws : List Nat) (k : Nat) :
    (unpack width ws).getD (k * width + i) false = (ws.getD k 0).testBit i := by
  induction ws generalizing k with
  | nil => simp [unpack]
  | cons w ws ih =>
    rw [unpack_cons]
    cases k with
    | zero =>
      rw [List.getD_append _ _ _ _ (by simpa using hi)]
      simp [List.getD_eq_getElem?_getD, hi]
    | succ k =>
      have hpos : (k + 1) * width + i = width + (k * width + i) := by rw [Nat.succ_mul]; omega
      rw [List.getD_append_right _ _ _ _ (by simp [hpos]), List.getD_cons_succ, ← ih k]
      simp [hpos]

/-! ### Length and round trip -/

/-- Settles O6: `ENCODE` makes one word for each `k` below the ceiling. -/
theorem encodedLengthIsCeiling : Obligations.EncodedLengthIsCeiling :=
  fun width bits _ => packBits_length width bits

/-- Position `n` is position `n % width` of word `n / width`, where both sides read bit `n` or padding. -/
theorem unpack_packBits {width : Nat} (hw : 1 ≤ width) (bits : List Bool) :
    unpack width (packBits width bits) =
      bits ++ List.replicate (ceilDiv bits.length width * width - bits.length) false := by
  have hroom := (ceilDiv_mul_bounds bits.length hw).1
  refine list_ext_getD false (by simp; omega) fun n _ => ?_
  have hi : n % width < width := Nat.mod_lt n hw
  calc (unpack width (packBits width bits)).getD n false
      = ((packBits width bits).getD (n / width) 0).testBit (n % width) := by
        rw [← unpack_getD hi, Nat.div_add_mod']
    _ = bits.getD n false := by rw [testBit_packBits bits _ hi, Nat.div_add_mod']
    _ = _ := (getD_append_replicate_false ..).symm

/-- Words below `2 ^ width` have no bit at `width` or above, so the bits that `UNPACK` reads are all of them. -/
theorem packBits_unpack {width : Nat} (hw : 1 ≤ width) {ws : List Nat} (hws : ∀ w ∈ ws, w < 2 ^ width) :
    packBits width (unpack width ws) = ws := by
  have hlen : (packBits width (unpack width ws)).length = ws.length := by simp [ceilDiv_mul_self _ hw]
  refine list_ext_getD 0 hlen fun k hk => Nat.eq_of_testBit_eq fun i => ?_
  rcases Nat.lt_or_ge i width with hi | hi
  · rw [testBit_packBits _ k hi, unpack_getD hi]
  · have hpow : 2 ^ width ≤ 2 ^ i := Nat.pow_le_pow_right Nat.two_pos hi
    have hk' : k < ws.length := hlen ▸ hk
    rw [List.getD_eq_getElem _ _ hk, List.getD_eq_getElem _ _ hk',
      Nat.testBit_lt_two_pow ((packBits_lt (List.getElem_mem hk)).trans_le hpow),
      Nat.testBit_lt_two_pow ((hws _ (List.getElem_mem hk')).trans_le hpow)]

/-- Settles O7: the two round trips, with fewer than `width` positions of padding. -/
theorem encodeUnpackRoundTrip : Obligations.EncodeUnpackRoundTrip := by
  refine fun width hw => ⟨fun bits => ⟨?_, unpack_packBits hw bits⟩, fun ws hws => packBits_unpack hw hws⟩
  have hbounds := ceilDiv_mul_bounds bits.length hw
  omega

/-! ### The words that BOOT stores -/

@[simp] theorem packWords_length (bits : List Bool) : (packWords bits).length = (bits.length + 31) / 32 := by
  simp [packWords, ceilDiv]

theorem packWords_map_toNat (bits : List Bool) : (packWords bits).map BitVec.toNat = packBits 32 bits := by
  have hkeep : ∀ w ∈ packBits 32 bits, (BitVec.ofNat 32 w).toNat = w := fun w hw => Nat.mod_eq_of_lt (packBits_lt hw)
  rw [packWords, List.map_map]
  exact (List.map_congr_left hkeep).trans (List.map_id _)

theorem packWords_getLsbD (bits : List Bool) (k : Nat) {i : Nat} (hi : i < 32) :
    ((packWords bits).getD k 0#32).getLsbD i = bits.getD (32 * k + i) false := by
  rw [packWords, show 0#32 = BitVec.ofNat 32 0 from rfl, List.getD_map, BitVec.getLsbD_ofNat,
    testBit_packBits bits k hi]
  simp [hi, Nat.mul_comm]

/-- The bits of word 10 above the 13 that a 333-bit signal leaves for it are past the end of the signal. -/
theorem packWords_getLsbD_padding {bits : List Bool} (hlen : bits.length = 333) {i : Nat} (hi : 13 ≤ i) (hi' : i < 32) :
    ((packWords bits).getD 10 0#32).getLsbD i = false := by
  rw [packWords_getLsbD bits 10 hi', List.getD_eq_default _ _ (by omega)]

/-- R134's bound on word 10: a number with no bit from 13 on is below `2 ^ 13`. -/
theorem packWords_last_le {bits : List Bool} (hlen : bits.length = 333) :
    ((packWords bits).getD 10 0#32).toNat ≤ 0x00001FFF := by
  refine Nat.le_of_lt_succ (Nat.lt_pow_two_of_testBit (n := 13) _ fun i hi => ?_)
  rcases Nat.lt_or_ge i 32 with hi' | hi'
  · exact packWords_getLsbD_padding hlen hi hi'
  · exact BitVec.getLsbD_of_ge _ _ hi'

/-- Settles O8: every length by the bit law of `packWords`, and then at length 333. -/
theorem domainStreamShape : Obligations.DomainStreamShape := by
  refine ⟨fun bits => ⟨packWords_map_toNat bits, packWords_length bits, fun k i hi => packWords_getLsbD bits k hi⟩,
    fun bits hlen => ⟨?count, fun k i _ hi => packWords_getLsbD bits k hi,
      fun i hi => packWords_getLsbD bits 10 (by omega),
      fun i hi hi' => packWords_getLsbD_padding hlen hi (by omega), packWords_last_le hlen⟩⟩
  case count => rw [packWords_length, hlen]

end Sys2Proof.Machine
end

section
/-! PROOFS. What no operation writes once it holds a value (41_sequencer.md R161, R165; 70_reset_and_hazards.md R263,
R265): the configuration, `BITS`, the operands that `START` bound, and `WS`. Two operations write any of it, each behind a
gate that its own write closes: BOOT's `ENCODE` and a successful `START`. -/

namespace Sys2Proof.Machine

/-- What is settled at power-on and during boot, with the two marks that say how far boot has come. -/
def State.bootStores (s : State) : (Config × List Bool) × (Bool × BitVec 32 × Nat) × (Bool × List Word) :=
  ((s.cfg, s.bits), (s.started, s.cfgFreq, s.cfgPin), (s.wsStored, s.ws))

theorem bootStores_eq_iff {s t : State} :
    t.bootStores = s.bootStores ↔
      (t.cfg = s.cfg ∧ t.bits = s.bits) ∧ (t.started = s.started ∧ t.cfgFreq = s.cfgFreq ∧ t.cfgPin = s.cfgPin) ∧
        t.wsStored = s.wsStored ∧ t.ws = s.ws := by
  simp [State.bootStores]

@[simp] theorem tick_bootStores (s : State) : (tick s).bootStores = s.bootStores := by
  simp [bootStores_eq_iff]

theorem ticksN_bootStores (n : Nat) (s : State) : (ticksN n s).bootStores = s.bootStores :=
  ticksN_keeps (P := fun u => u.bootStores = s.bootStores) (fun u h => (tick_bootStores u).trans h) n s rfl

/-- `ENCODE` stores the stream only where none is stored. -/
theorem execEncode_bootStores {bits : List Bool} {width : Nat} {s t : State} (h : execEncode bits width s = .next t) :
    t.bootStores = s.bootStores ∨
      s.wsStored = false ∧ t.bootStores = (storeStream (packWords bits) s).bootStores := by
  obtain ⟨-, -, rfl⟩ := execEncode_next.mp h
  cases hboot : isBootEncode bits width s with
  | false => exact .inl rfl
  | true =>
    have hopen : s.wsStored = false := by
      rw [isBootEncode, Bool.and_eq_true, Bool.and_eq_true, Bool.not_eq_true'] at hboot
      exact hboot.1.1
    exact .inr ⟨hopen, rfl⟩

/-- `START` binds its operands only where the sequencer is not started; a `ConfigError` binds nothing. -/
theorem execStart_bootStores {f : BitVec 32} {p : Nat} {s t : State} (h : execStart f p s = .next t) :
    t.bootStores = s.bootStores ∨ s.started = false ∧ t.bootStores = (bindSequencer f p s).bootStores := by
  obtain ⟨-, hopen, ⟨-, rfl⟩ | ⟨-, rfl⟩⟩ := execStart_next.mp h
  · exact .inl rfl
  · exact .inr ⟨hopen, rfl⟩

/-- All that an operation can do to these stores. -/
theorem exec_bootStores {i : Instr} {s t : State} (h : exec i s = .next t) :
    t.bootStores = s.bootStores ∨
      (∃ words, s.wsStored = false ∧ t.bootStores = (storeStream words s).bootStores) ∨
      ∃ f p, s.started = false ∧ t.bootStores = (bindSequencer f p s).bootStores := by
  cases i with
  | encode bits width => exact (execEncode_bootStores h).imp_right fun hw => .inl ⟨_, hw⟩
  | start f p => exact (execStart_bootStores h).imp_right fun hb => .inr ⟨f, p, hb⟩
  | symOn => obtain ⟨-, -, -, rfl⟩ := execSymOn_next.mp h; exact .inl (tick_bootStores s)
  | symOff => obtain ⟨-, -, -, rfl⟩ := execSymOff_next.mp h; exact .inl (tick_bootStores s)
  | word w => obtain ⟨-, -, -, ht⟩ := execWord_next.mp h; exact .inl (ht ▸ ticksN_bootStores W s)
  | wordZero => obtain ⟨-, -, -, ht⟩ := execWordZero_next.mp h; exact .inl (ht ▸ ticksN_bootStores W s)
  | tickPull => obtain ⟨-, -, -, -, rfl⟩ := execTickPull_next.mp h; exact .inl (tick_bootStores s)
  | tickShift => obtain ⟨-, -, -, rfl⟩ := execTickShift_next.mp h; exact .inl (tick_bootStores s)
  | tickStarve => obtain ⟨-, -, -, -, rfl⟩ := execTickStarve_next.mp h; exact .inl (tick_bootStores s)
  | enq w => obtain ⟨-, -, ⟨-, rfl⟩ | ⟨-, rfl⟩⟩ := execEnq_next.mp h <;> exact .inl rfl
  | flush => obtain ⟨-, -, ⟨-, rfl⟩ | ⟨-, rfl⟩⟩ := execFlush_next.mp h <;> exact .inl rfl
  | ctlBegin => obtain ⟨-, -, -, -, -, rfl⟩ := execCtlBegin_next.mp h; exact .inl rfl
  | ctlSend => obtain ⟨-, -, -, -, -, ⟨-, rfl⟩ | ⟨-, rfl⟩⟩ := execCtlSend_next.mp h <;> exact .inl rfl
  | ctlEndPass => obtain ⟨-, -, -, -, -, rfl⟩ := execCtlEndPass_next.mp h; exact .inl rfl
  | ctlToFlush => obtain ⟨-, -, -, -, ⟨-, rfl⟩ | ⟨-, rfl⟩⟩ := execCtlToFlush_next.mp h <;> exact .inl rfl
  | ctlToCool => obtain ⟨-, -, -, rfl⟩ := execCtlToCool_next.mp h; exact .inl rfl
  | ctlCoolDone => obtain ⟨-, -, -, ⟨-, rfl⟩ | ⟨-, rfl⟩⟩ := execCtlCoolDone_next.mp h <;> exact .inl rfl
  | fbToggle => obtain ⟨-, -, rfl⟩ := execFbToggle_next.mp h; exact .inl rfl
  | fbIdle => obtain ⟨-, -, rfl⟩ := execFbIdle_next.mp h; exact .inl rfl

/-- Settles O25: the write of `WS` needs it not stored, the write of `cfg_freq` and `cfg_pin` needs no `START` before. -/
theorem configurationNeverChanges : Obligations.ConfigurationNeverChanges := by
  intro i s t h
  obtain hsame | ⟨words, hopen, hstore⟩ | ⟨f, p, hopen, hbind⟩ := exec_bootStores h
  · obtain ⟨⟨hcfg, hbits⟩, ⟨hstarted, hfreq, hpin⟩, hstored, hws⟩ := bootStores_eq_iff.mp hsame
    exact ⟨hcfg, hbits, fun hs => ⟨hstarted.trans hs, hfreq, hpin⟩, fun hs => ⟨hstored.trans hs, hws⟩⟩
  · obtain ⟨⟨hcfg, hbits⟩, ⟨hstarted, hfreq, hpin⟩, -⟩ := bootStores_eq_iff.mp hstore
    exact ⟨hcfg, hbits, fun hs => ⟨hstarted.trans hs, hfreq, hpin⟩, fun hs => by simp [hopen] at hs⟩
  · obtain ⟨⟨hcfg, hbits⟩, -, hstored, hws⟩ := bootStores_eq_iff.mp hbind
    exact ⟨hcfg, hbits, fun hs => by simp [hopen] at hs, fun hs => ⟨hstored.trans hs, hws⟩⟩

end Sys2Proof.Machine
end

section
/-! PROOFS. The line form of the operations (30_encoding.md R100 to R102, R110 to R112): each operand's decoder is the
inverse of what `encode` writes, so the decoder and the encoder undo each other. -/

namespace Sys2Proof

theorem decodeBits_map_toNat : ∀ bits : List Bool, decodeBits (bits.map Bool.toNat) = some bits
  | [] => rfl
  | b :: bs => by
    have hb : decodeBit b.toNat = some b := by cases b <;> rfl
    simp only [List.map_cons, decodeBits, hb, decodeBits_map_toNat bs]

theorem decodeBit_eq_some {n : Nat} {b : Bool} (h : decodeBit n = some b) : b.toNat = n := by
  match n, h with
  | 0, h => cases h; rfl
  | 1, h => cases h; rfl

theorem decodeBits_eq_some : ∀ {ns : List Nat} {bits : List Bool}, decodeBits ns = some bits → bits.map Bool.toNat = ns
  | [], bits, h => by cases h; rfl
  | n :: ns, bits, h => by
    rw [decodeBits] at h
    split at h
    next b bs hb hbs =>
      cases h
      rw [List.map_cons, decodeBit_eq_some hb, decodeBits_eq_some hbs]
    next => cases h

theorem decodeWord32_toNat (w : Word) : decodeWord32 w.toNat = some w := by
  simp [decodeWord32, w.isLt]

theorem decodeWord32_eq_some {n : Nat} {w : Word} (h : decodeWord32 n = some w) : w.toNat = n := by
  unfold decodeWord32 at h
  split at h
  next hn => cases h; exact Nat.mod_eq_of_lt hn
  next => cases h

/-- Settles O1: each operand's decoder reads back what `encode` wrote; `wellFormed` excludes the two spellings of the
zero word that belong to `FLUSH` and `WORD.ZERO`. -/
theorem decodeOfEncodeGivesBack : Obligations.DecodeOfEncodeGivesBack := by
  intro i hi
  cases i with
  | encode bits width => simp only [encode, decode, decodeOp, decodeEncode, decodeBits_map_toNat]
  | start f p => simp only [encode, decode, decodeOp, decodeStart, decodeWord32_toNat]
  | enq w =>
    have hw : w ≠ 0#32 := of_decide_eq_true hi
    simp only [encode, decode, decodeOp, decodeEnq, decodeWord32_toNat, if_neg hw]
  | word w =>
    have hw : w ≠ 0#32 := of_decide_eq_true hi
    simp only [encode, decode, if_neg hw]
  | symOn | symOff | wordZero | flush | tickPull | tickShift | tickStarve | ctlBegin | ctlSend | ctlEndPass | ctlToFlush
  | ctlToCool | ctlCoolDone | fbToggle | fbIdle => rfl

/-! ### The other direction -/

theorem encode_of_decodeEncode {width : Nat} {elements : List Nat} {i : Instr}
    (h : decodeEncode width elements = some i) : encode i = .op 0 (width :: elements) := by
  unfold decodeEncode at h
  split at h
  next bits hbits => cases h; rw [encode, decodeBits_eq_some hbits]
  next => cases h

theorem encode_of_decodeStart {f p : Nat} {i : Instr} (h : decodeStart f p = some i) : encode i = .op 1 [f, p] := by
  unfold decodeStart at h
  split at h
  next f32 hf => cases h; rw [encode, decodeWord32_eq_some hf]
  next => cases h

theorem encode_of_decodeEnq {n : Nat} {i : Instr} (h : decodeEnq n = some i) : encode i = .op 2 [n] := by
  unfold decodeEnq at h
  split at h
  next w hw =>
    have hn := decodeWord32_eq_some hw
    split at h
    next h0 => cases h; subst h0; rw [encode, ← hn]; rfl
    next => cases h; rw [encode, hn]
  next => cases h

theorem encode_of_decodeOp {sel : Nat} {operands : List Nat} {i : Instr} (h : decodeOp sel operands = some i) :
    encode i = .op sel operands := by
  unfold decodeOp at h
  split at h
  case h_1 => exact encode_of_decodeEncode h
  case h_2 => exact encode_of_decodeStart h
  case h_3 => exact encode_of_decodeEnq h
  all_goals cases h
  all_goals rfl

/-- Settles O2: a symbol line has one bit to read, a word line one word, and an operation line is read operand by
operand. -/
theorem encodeOfDecodeGivesLine : Obligations.EncodeOfDecodeGivesLine := by
  intro l i h
  cases l with
  | sym b =>
    have hbit : ∀ b : BitVec 1, b = 0#1 ∨ b = 1#1 := by decide
    obtain rfl | rfl := hbit b <;> cases h <;> rfl
  | word w =>
    rw [decode] at h
    split at h
    next h0 => cases h; rw [h0]; rfl
    next => cases h; rfl
  | op sel operands => exact encode_of_decodeOp h

/-- Settles O3. -/
theorem specLinesDecode : Obligations.SpecLinesDecode := by
  refine ⟨?symbol, ?word, ?start, ?flush, ?encode⟩ <;> decide

/-- No row of the operation list has a selector of 14 or more. -/
theorem decodeOp_reserved {sel : Nat} (hsel : 14 ≤ sel) (operands : List Nat) : decodeOp sel operands = none := by
  unfold decodeOp
  split
  case h_15 => rfl
  all_goals exact absurd hsel (by decide)

namespace Machine

/-- Settles O4: the decoder's answer for such a selector is the step's refusal. -/
theorem reservedSelectorsAreRefused : Obligations.ReservedSelectorsAreRefused := by
  intro sel operands hsel
  have hnone : decode (.op sel operands) = none := decodeOp_reserved hsel operands
  exact ⟨hnone, fun s rest htrace => by simp only [step, htrace, hnone]⟩

/-! ### What the round trip of the encoder gives -/

/-- Settles O9: the bits are the first ones of the unpacking, so at one length the words determine them; a last word
does not say how many of its positions are padding. -/
theorem encodeInjectiveAtOneLength : Obligations.EncodeInjectiveAtOneLength := by
  refine ⟨fun width hw => ?_, by decide⟩
  have hinv : ∀ bits : List Bool, (unpack width (packBits width bits)).take bits.length = bits := fun bits => by
    rw [unpack_packBits hw, List.take_left]
  exact ⟨fun a b hlen h => by rw [← hinv a, ← hinv b, h, hlen], hinv⟩

/-- The padding of a pass, as R139 counts it. -/
theorem ceilDiv_padding {width : Nat} (n : Nat) (hw : 1 ≤ width) :
    ceilDiv n width * width - n = if n % width = 0 then 0 else width - n % width := by
  obtain ⟨hroom, htight⟩ := ceilDiv_mul_bounds n hw
  have hmod := Nat.mod_lt n hw
  obtain ⟨p, hp⟩ := Nat.le.dest hroom
  have hsum : (n % width + p) % width = 0 := by
    rw [Nat.mod_add_mod, hp, Nat.mul_mod_left]
  have hdvd := Nat.dvd_of_mod_eq_zero hsum
  split
  next h0 =>
    rw [h0, Nat.zero_add] at hdvd
    have := Nat.eq_zero_of_dvd_of_lt hdvd (by omega)
    omega
  next h0 =>
    obtain ⟨q, hq⟩ := hdvd
    have hq1 : q = 1 := by
      match q, hq with
      | 0, hq => omega
      | 1, _ => rfl
      | q + 2, hq => rw [Nat.mul_add] at hq; have := Nat.zero_le (width * q); omega
    rw [hq1] at hq
    omega

/-- Settles O10: what follows the bits in the unpacking is the padding. -/
theorem passEndsLowUnlessFull : Obligations.PassEndsLowUnlessFull := by
  intro width bits hw
  have hmod := Nat.mod_lt bits.length hw
  rw [unpack_packBits hw, List.drop_left, ceilDiv_padding _ hw]
  refine ⟨fun h => ⟨by omega, by rw [if_neg h]⟩, fun h => ?_⟩
  rw [if_pos h, List.replicate_zero, List.append_nil]

end Machine

end Sys2Proof
end

section
/-! PROOFS. Said once for all operations: what one that is answered does to the state. The invariants of the later
sections are proved along these cases, not along the instructions. -/

namespace Sys2Proof.Machine

/-- `Effect s i t`: the operation `i`, answered in `s`, leaves the state `t`. One constructor for each kind of change;
`effect_of_exec` ties it to `exec`. -/
inductive Effect (s : State) : Instr → State → Prop where
  /-- A hold (R15). -/
  | held {i : Instr} : s.running = true → holds i s = true → Effect s i s
  /-- A tick or a symbol, or the ticks of a word. -/
  | ticked {i : Instr} {n : Nat} : s.running = true → sequencerOp i = true →
      n = 1 ∨ (n = W ∧ ∃ w, s.nextWord = some w) → Effect s i (ticksN n s)
  /-- `ENCODE` for a caller that is not BOOT. -/
  | encoded (bits : List Bool) (width : Nat) : s.fault = none → Effect s (.encode bits width)
      (returnWords (packBits width bits) s)
  /-- BOOT's `ENCODE`, with its store. -/
  | stored : s.fault = none → s.wsStored = false → Effect s (.encode s.bits W)
      (returnWords (packBits W s.bits) (storeStream (packWords s.bits) s))
  /-- `START` at a `ConfigError`. -/
  | failed (f : BitVec 32) (p : Nat) : s.fault = none → s.started = false → Effect s (.start f p)
      (takeConfigError (startCauses s.cfg f p) s)
  /-- `START`. -/
  | bound (f : BitVec 32) (p : Nat) : s.fault = none → s.started = false → Effect s (.start f p) (bindSequencer f p s)
  /-- `ENQ` or `FLUSH` from outside the controller. -/
  | pushed {i : Instr} (w : Word) : s.running = true → s.fifoFull = false → sequencerOp i = false →
      controllerOnly i = false → Effect s i (pushWord w s)
  /-- `CTL.BEGIN`. -/
  | begun : s.running = true → s.ctl = .idle → s.wsStored = true → Effect s .ctlBegin
      { setCtl .transmitting 0 0 s with fbwait := s.cfg.feedbackTicks }
  /-- `CTL.SEND` of an accepted word. -/
  | sent : s.running = true → s.ctl = .transmitting → s.r < s.cfg.repeatCount → s.j < s.streamLen →
      s.cfg.feedbackTicks ≤ s.fbwait → s.fifoFull = false → Effect s .ctlSend
      (setCtl .transmitting s.r (s.j + 1) (pushWord (s.memRead s.j) s))
  /-- `CTL.ENDPASS`. -/
  | passEnded : s.running = true → s.ctl = .transmitting → s.r < s.cfg.repeatCount → s.j = s.streamLen →
      Effect s .ctlEndPass { setCtl .transmitting (s.r + 1) 0 (callFb .toggle s) with fbwait := 0 }
  /-- `CTL.TOFLUSH` with the flush word accepted. -/
  | flushed : s.running = true → s.ctl = .transmitting → s.r = s.cfg.repeatCount → s.fifoFull = false →
      Effect s .ctlToFlush (setCtl .flushing s.r s.j (pushWord 0#32 s))
  /-- `CTL.TOCOOL`. -/
  | cooling : s.running = true → s.ctl = .flushing → Effect s .ctlToCool
      { setCtl .cooldown s.r s.j (callFb .idle s) with cool := 0 }
  /-- `CTL.COOLDONE` that ends the wait. -/
  | cooled : s.running = true → s.ctl = .cooldown → s.cfg.cooldownTicks ≤ s.cool → Effect s .ctlCoolDone
      (setCtl .idle 0 0 s)
  /-- A bare call of FeedbackSink. -/
  | called {i : Instr} (c : FbCall) : s.running = true → i = .fbToggle ∨ i = .fbIdle → Effect s i (callFb c s)

/-! ### The fields after `n` ticks -/

section
variable (n : Nat) (s : State)

@[simp] theorem ticksN_cfg : (ticksN n s).cfg = s.cfg := by simp only [ticksN_frame]
@[simp] theorem ticksN_bits : (ticksN n s).bits = s.bits := by simp only [ticksN_frame]
@[simp] theorem ticksN_wsStored : (ticksN n s).wsStored = s.wsStored := by simp only [ticksN_frame]
@[simp] theorem ticksN_ws : (ticksN n s).ws = s.ws := by simp only [ticksN_frame]
@[simp] theorem ticksN_started : (ticksN n s).started = s.started := by simp only [ticksN_frame]
@[simp] theorem ticksN_ctl : (ticksN n s).ctl = s.ctl := by simp only [ticksN_frame]
@[simp] theorem ticksN_r : (ticksN n s).r = s.r := by simp only [ticksN_frame]
@[simp] theorem ticksN_j : (ticksN n s).j = s.j := by simp only [ticksN_frame]
@[simp] theorem ticksN_fault : (ticksN n s).fault = s.fault := by simp only [ticksN_frame]
@[simp] theorem ticksN_enqs : (ticksN n s).enqs = s.enqs := by simp only [ticksN_frame]
@[simp] theorem ticksN_fb : (ticksN n s).fb = s.fb := by simp only [ticksN_frame]
@[simp] theorem ticksN_trace : (ticksN n s).trace = s.trace := by simp only [ticksN_frame]
@[simp] theorem ticksN_sched : (ticksN n s).sched = s.sched := by simp only [ticksN_frame]
@[simp] theorem ticksN_ticks : (ticksN n s).ticks = s.ticks + n := by simp only [ticksN_frame]
theorem ticksN_cool : (ticksN n s).cool = if s.ctl = .cooldown then s.cool + n else s.cool := by
  simp only [ticksN_frame]
theorem ticksN_fbwait : (ticksN n s).fbwait = if s.ctl = .transmitting then s.fbwait + n else s.fbwait := by
  simp only [ticksN_frame]

end

/-! ### The effect of each operation -/

theorem isBootEncode_iff {bits : List Bool} {width : Nat} {s : State} :
    isBootEncode bits width s = true ↔ s.wsStored = false ∧ width = W ∧ bits = s.bits := by
  simp [isBootEncode, and_assoc]

theorem effect_of_execEncode {bits : List Bool} {width : Nat} {s t : State} (h : execEncode bits width s = .next t) :
    Effect s (.encode bits width) t := by
  obtain ⟨hf, -, rfl⟩ := execEncode_next.mp h
  split
  next hboot =>
    obtain ⟨hopen, rfl, rfl⟩ := isBootEncode_iff.mp hboot
    exact .stored hf hopen
  next => exact .encoded bits width hf

theorem effect_of_execStart {f : BitVec 32} {p : Nat} {s t : State} (h : execStart f p s = .next t) :
    Effect s (.start f p) t := by
  obtain ⟨hf, hs, ⟨-, rfl⟩ | ⟨-, rfl⟩⟩ := execStart_next.mp h
  · exact .failed f p hf hs
  · exact .bound f p hf hs

/-- Whatever an operation's answer is, it is one of these effects. -/
theorem effect_of_exec {i : Instr} {s t : State} (h : exec i s = .next t) : Effect s i t := by
  cases i with
  | encode bits width => exact effect_of_execEncode h
  | start f p => exact effect_of_execStart h
  | symOn =>
    obtain ⟨hf, hs, -, rfl⟩ := execSymOn_next.mp h
    exact .ticked (n := 1) (running_iff.mpr ⟨hf, hs⟩) rfl (.inl rfl)
  | symOff =>
    obtain ⟨hf, hs, -, rfl⟩ := execSymOff_next.mp h
    exact .ticked (n := 1) (running_iff.mpr ⟨hf, hs⟩) rfl (.inl rfl)
  | word w =>
    obtain ⟨hf, hs, hw, ht⟩ := execWord_next.mp h
    rw [ht]
    exact .ticked (n := W) (running_iff.mpr ⟨hf, hs⟩) rfl (.inr ⟨rfl, w, hw⟩)
  | wordZero =>
    obtain ⟨hf, hs, hw, ht⟩ := execWordZero_next.mp h
    rw [ht]
    exact .ticked (n := W) (running_iff.mpr ⟨hf, hs⟩) rfl (.inr ⟨rfl, _, hw⟩)
  | tickPull =>
    obtain ⟨hf, hs, -, -, rfl⟩ := execTickPull_next.mp h
    exact .ticked (n := 1) (running_iff.mpr ⟨hf, hs⟩) rfl (.inl rfl)
  | tickShift =>
    obtain ⟨hf, hs, -, rfl⟩ := execTickShift_next.mp h
    exact .ticked (n := 1) (running_iff.mpr ⟨hf, hs⟩) rfl (.inl rfl)
  | tickStarve =>
    obtain ⟨hf, hs, -, -, rfl⟩ := execTickStarve_next.mp h
    exact .ticked (n := 1) (running_iff.mpr ⟨hf, hs⟩) rfl (.inl rfl)
  | enq w =>
    obtain ⟨hf, hs, ⟨hfull, rfl⟩ | ⟨hroom, rfl⟩⟩ := execEnq_next.mp h
    · exact .held (running_iff.mpr ⟨hf, hs⟩) (by simp [holds, running_iff, hf, hs, hfull])
    · exact .pushed w (running_iff.mpr ⟨hf, hs⟩) hroom rfl rfl
  | flush =>
    obtain ⟨hf, hs, ⟨hfull, rfl⟩ | ⟨hroom, rfl⟩⟩ := execFlush_next.mp h
    · exact .held (running_iff.mpr ⟨hf, hs⟩) (by simp [holds, running_iff, hf, hs, hfull])
    · exact .pushed 0#32 (running_iff.mpr ⟨hf, hs⟩) hroom rfl rfl
  | ctlBegin =>
    obtain ⟨hf, hs, hctl, hws, -, rfl⟩ := execCtlBegin_next.mp h
    exact .begun (running_iff.mpr ⟨hf, hs⟩) hctl hws
  | ctlSend =>
    obtain ⟨hf, hs, hctl, hr, hj, ⟨hwait, rfl⟩ | ⟨⟨hfb, hroom⟩, rfl⟩⟩ := execCtlSend_next.mp h
    · exact .held (running_iff.mpr ⟨hf, hs⟩)
        (by simp [holds, running_iff, State.sendDue, State.inFeedbackDelay, hf, hs, hctl, hr, hj, hwait])
    · exact .sent (running_iff.mpr ⟨hf, hs⟩) hctl hr hj hfb hroom
  | ctlEndPass =>
    obtain ⟨hf, hs, hctl, hr, hj, rfl⟩ := execCtlEndPass_next.mp h
    exact .passEnded (running_iff.mpr ⟨hf, hs⟩) hctl hr hj
  | ctlToFlush =>
    obtain ⟨hf, hs, hctl, hr, ⟨hfull, rfl⟩ | ⟨hroom, rfl⟩⟩ := execCtlToFlush_next.mp h
    · exact .held (running_iff.mpr ⟨hf, hs⟩) (by simp [holds, running_iff, State.flushDue, hf, hs, hctl, hr, hfull])
    · exact .flushed (running_iff.mpr ⟨hf, hs⟩) hctl hr hroom
  | ctlToCool =>
    obtain ⟨hf, hs, hctl, rfl⟩ := execCtlToCool_next.mp h
    exact .cooling (running_iff.mpr ⟨hf, hs⟩) hctl
  | ctlCoolDone =>
    obtain ⟨hf, hs, hctl, ⟨hwait, rfl⟩ | ⟨hover, rfl⟩⟩ := execCtlCoolDone_next.mp h
    · exact .held (running_iff.mpr ⟨hf, hs⟩) (by simp [holds, running_iff, State.inCooldownWait, hf, hs, hctl, hwait])
    · exact .cooled (running_iff.mpr ⟨hf, hs⟩) hctl hover
  | fbToggle =>
    obtain ⟨hf, hs, rfl⟩ := execFbToggle_next.mp h
    exact .called .toggle (running_iff.mpr ⟨hf, hs⟩) (.inl rfl)
  | fbIdle =>
    obtain ⟨hf, hs, rfl⟩ := execFbIdle_next.mp h
    exact .called .idle (running_iff.mpr ⟨hf, hs⟩) (.inr rfl)

/-- An operation that holds is answered with the state unchanged. -/
theorem exec_of_holds {i : Instr} {s : State} (h : holds i s = true) : exec i s = .next s := by
  cases i <;> simp only [holds, Bool.and_eq_true, running_iff, reduceCtorEq] at h
  case enq w =>
    obtain ⟨⟨hf, hs⟩, hfull⟩ := h
    exact execEnq_next.mpr ⟨hf, hs, .inl ⟨hfull, rfl⟩⟩
  case flush =>
    obtain ⟨⟨hf, hs⟩, hfull⟩ := h
    exact execFlush_next.mpr ⟨hf, hs, .inl ⟨hfull, rfl⟩⟩
  case ctlSend =>
    obtain ⟨⟨⟨hf, hs⟩, hdue⟩, hwait⟩ := h
    simp only [State.sendDue, Bool.and_eq_true, decide_eq_true_eq] at hdue
    obtain ⟨⟨hctl, hr⟩, hj⟩ := hdue
    exact execCtlSend_next.mpr ⟨hf, hs, hctl, hr, hj, .inl ⟨by simpa [State.inFeedbackDelay] using hwait, rfl⟩⟩
  case ctlToFlush =>
    obtain ⟨⟨⟨hf, hs⟩, hdue⟩, hfull⟩ := h
    simp only [State.flushDue, Bool.and_eq_true, decide_eq_true_eq] at hdue
    exact execCtlToFlush_next.mpr ⟨hf, hs, hdue.1, hdue.2, .inl ⟨hfull, rfl⟩⟩
  case ctlCoolDone =>
    obtain ⟨⟨⟨hf, hs⟩, hctl⟩, hwait⟩ := h
    exact execCtlCoolDone_next.mpr ⟨hf, hs, of_decide_eq_true hctl, .inl ⟨of_decide_eq_true hwait, rfl⟩⟩

/-- A history is followed by one fact about it that every allowed operation keeps. -/
theorem ReachableFrom.keeps {allowed : Instr → Bool} {start s : State} {P : State → Prop}
    (h : ReachableFrom allowed start s) (hstart : P start)
    (hstep : ∀ i u v, allowed i = true → Effect u i v → P u → P v) : P s := by
  induction h with
  | here => exact hstart
  | op i u v _ hi hexec ih => exact hstep i u v hi (effect_of_exec hexec) ih

end Sys2Proof.Machine
end

section
/-! PROOFS. What the ticks emit (20_memory.md R80, 41_sequencer.md R163 to R166): the pending bits, one per tick, and then
nothing. Every statement about what comes out, and when, is read off `State.pending`. -/

namespace Sys2Proof.Machine

theorem osrEmpty_iff {s : State} : s.osrEmpty = true ↔ W ≤ s.cnt := decide_eq_true_iff

theorem osrEmpty_eq_false_iff {s : State} : s.osrEmpty = false ↔ s.cnt < W := by
  rw [State.osrEmpty, decide_eq_false_iff_not, Nat.not_le]

theorem fifoFull_iff {s : State} : s.fifoFull = true ↔ s.cfg.fifoDepth ≤ s.fifo.length := decide_eq_true_iff

theorem fifoFull_eq_false_iff {s : State} : s.fifoFull = false ↔ s.fifo.length < s.cfg.fifoDepth := by
  rw [State.fifoFull, decide_eq_false_iff_not, Nat.not_le]

theorem ticksN_succ (n : Nat) (s : State) : ticksN (n + 1) s = tick (ticksN n s) := ticksN_add n 1 s

/-! ### One tick -/

/-- A tick takes the first pending bit, and the line and `EMIT` get it. -/
theorem tick_emits {s : State} {b : Bool} {rest : List Bool} (h : s.pending = b :: rest) :
    (tick s).pending = rest ∧ (tick s).emit = s.emit ++ [b] ∧ (tick s).line = Level.ofBit b := by
  obtain ⟨w, q, hc, hf, ht⟩ | ⟨hc, ht⟩ | ⟨hc, hf, -⟩ := tick_cases s
  · rw [State.pending, osrBits_of_empty hc, hf, List.nil_append, unpackWords_cons, wordBits_pulled w q s,
      List.cons_append, List.cons.injEq] at h
    obtain ⟨rfl, rfl⟩ := h
    rw [ht]
    exact ⟨rfl, rfl, rfl⟩
  · rw [State.pending, osrBits_shifted hc, List.cons_append, List.cons.injEq] at h
    obtain ⟨rfl, rfl⟩ := h
    rw [ht]
    exact ⟨rfl, rfl, rfl⟩
  · rw [State.pending, osrBits_of_empty hc, hf] at h
    cases h

/-- A tick with nothing pending is the starved one. -/
theorem tick_of_pending_nil {s : State} (h : s.pending = []) : tick s = starvedTick s := by
  obtain ⟨w, q, hc, hf, -⟩ | ⟨hc, -⟩ | ⟨-, -, ht⟩ := tick_cases s
  · simp [State.pending, hf, wordBits_pulled w q s] at h
  · simp [State.pending, osrBits_shifted hc] at h
  · exact ht

@[simp] theorem starvedTick_pending (s : State) : (starvedTick s).pending = s.pending := rfl
@[simp] theorem starvedTick_emit (s : State) : (starvedTick s).emit = s.emit := rfl
@[simp] theorem starvedTick_cfg (s : State) : (starvedTick s).cfg = s.cfg := rfl
@[simp] theorem starvedTick_line (s : State) : (starvedTick s).line = starvedLevel s.cfg.starvePolicy s.line := rfl

@[simp] theorem starvedLevel_low (p : StarvePolicy) : starvedLevel p .low = .low := by cases p <;> rfl

@[simp] theorem starvedLevel_idem (p : StarvePolicy) (l : Level) :
    starvedLevel p (starvedLevel p l) = starvedLevel p l := by cases p <;> rfl

/-! ### Any number of ticks -/

theorem ticksN_emit_pending : ∀ (n : Nat) (s : State),
    (ticksN n s).emit = s.emit ++ s.pending.take n ∧ (ticksN n s).pending = s.pending.drop n
  | 0, s => by simp [ticksN]
  | n + 1, s => by
    obtain ⟨hemit, hpending⟩ := ticksN_emit_pending n (tick s)
    rw [ticksN, hemit, hpending]
    cases h : s.pending with
    | nil => rw [tick_of_pending_nil h]; simp [h]
    | cons b rest =>
      obtain ⟨hp, he, -⟩ := tick_emits h
      rw [hp, he]
      simp

/-- While bits are pending the waveform is theirs. -/
theorem ticksN_wave_pending : ∀ (n : Nat) (s : State), n ≤ s.pending.length →
    (ticksN n s).wave = s.wave ++ (s.pending.take n).map Level.ofBit
  | 0, s, _ => by simp [ticksN]
  | n + 1, s, hn => by
    cases h : s.pending with
    | nil => rw [h] at hn; exact absurd hn (Nat.not_succ_le_zero n)
    | cons b rest =>
      obtain ⟨hp, -, hl⟩ := tick_emits h
      rw [ticksN, ticksN_wave_pending n (tick s) (by rw [h] at hn; rw [hp]; exact Nat.le_of_succ_le_succ hn),
        tick_wave, hp, hl]
      simp

/-- With nothing pending the waveform is the level that the policy holds. -/
theorem ticksN_wave_starved : ∀ (n : Nat) (s : State), s.pending = [] →
    (ticksN n s).wave = s.wave ++ List.replicate n (starvedLevel s.cfg.starvePolicy s.line)
  | 0, s, _ => by simp [ticksN]
  | n + 1, s, h => by
    have ht := tick_of_pending_nil h
    rw [ticksN, ticksN_wave_starved n (tick s) (by rw [ht]; exact h), tick_wave, ht]
    simp [List.replicate_succ]

/-- A low line stays low as long as the ticks emit nothing but 0 bits: a held level and a driven one are both low. -/
theorem ticksN_line_low : ∀ (n : Nat) (s : State), s.line = .low → (∀ b ∈ s.pending.take n, b = false) →
    (ticksN n s).line = .low
  | 0, s, hl, _ => hl
  | n + 1, s, hl, hz => by
    rw [ticksN]
    cases h : s.pending with
    | nil =>
      have ht := tick_of_pending_nil h
      refine ticksN_line_low n (tick s) (by simp [ht, hl]) ?_
      simp [ht, h]
    | cons b rest =>
      rw [h, List.take_succ_cons, List.forall_mem_cons] at hz
      obtain ⟨rfl, hrest⟩ := hz
      obtain ⟨hp, -, hline⟩ := tick_emits h
      exact ticksN_line_low n (tick s) hline (by rwa [hp])

/-- Settles O23. -/
theorem sequencerEmitsWhatIsPending : Obligations.SequencerEmitsWhatIsPending := by
  refine fun s _ => ⟨fun n hn => ?_, fun hnil n => ⟨?_, ticksN_wave_starved n s hnil⟩⟩
  · obtain ⟨hemit, hpending⟩ := ticksN_emit_pending n s
    exact ⟨hemit, ticksN_wave_pending n s hn, hpending, ticksN_ticks n s⟩
  · rw [(ticksN_emit_pending n s).1, hnil, List.take_nil, List.append_nil]

/-! ### How much is in flight, and when it comes out -/

theorem pending_length (s : State) : s.pending.length = W * s.fifo.length + (W - s.cnt) := by
  rw [State.pending, List.length_append, unpackWords_length, osrBits_length, Nat.add_comm]

@[simp] theorem pushWord_pending (w : Word) (s : State) : (pushWord w s).pending = s.pending ++ wordBits w := by
  have hosr : (pushWord w s).osrBits = s.osrBits := rfl
  rw [State.pending, pushWord_fifo, unpackWords_append, hosr, unpackWords_cons, unpackWords_nil, List.append_nil,
    ← List.append_assoc]
  rfl

/-- R166's count: what is accepted and not emitted is what is pending. -/
theorem inFlight_eq {s : State} (h : s.StreamLaw) :
    (unpackWords s.enqs).length - s.emit.length = s.pending.length := by
  rw [← h, List.append_assoc, List.length_append, Nat.add_sub_cancel_left, State.pending]

theorem inFlight_le {s : State} (hfifo : s.FifoBounded) (hcnt : 1 ≤ s.cnt) :
    W * s.fifo.length + (W - s.cnt) ≤ W * s.cfg.fifoDepth + (W - 1) := by
  have := Nat.mul_le_mul_left W hfifo
  omega

/-- R166's bound, for a word that is still to be pushed. -/
theorem pending_add_word_le {s : State} (hroom : s.fifo.length < s.cfg.fifoDepth) (hcnt : 1 ≤ s.cnt) :
    s.pending.length + W ≤ W * s.cfg.fifoDepth + (W - 1) := by
  have hmul := Nat.mul_le_mul_left W hroom
  rw [pending_length]
  rw [Nat.mul_succ] at hmul
  simp only [W] at hmul ⊢
  omega

/-- A bit that is pending at position `n` is emitted by tick `n + 1`. -/
theorem ticksN_emit_at {s : State} {n : Nat} {b : Bool} (h : s.pending[n]? = some b) :
    (ticksN n s).emit.length = s.emit.length + n ∧ (ticksN (n + 1) s).emit = (ticksN n s).emit ++ [b] := by
  obtain ⟨hn, hb⟩ := List.getElem?_eq_some_iff.mp h
  rw [(ticksN_emit_pending n s).1, (ticksN_emit_pending (n + 1) s).1, List.take_succ_eq_append_getElem hn, hb]
  exact ⟨by rw [List.length_append, List.length_take_of_le hn.le], (List.append_assoc ..).symm⟩

theorem wordBits_getElem? (w : Word) {i : Nat} (hi : i < W) : (wordBits w)[i]? = some (w.getLsbD i) := by
  simp [wordBits, hi]

/-- Settles O24: the bits of a newly accepted word stand in `pending` right behind what was there. -/
theorem inFlightBoundAndLatency : Obligations.InFlightBoundAndLatency := by
  rintro s ⟨-, ⟨hfifo, ⟨⟨hcnt, -⟩, -⟩, -, -, -, -, -, hstream⟩, -⟩
  refine ⟨by rw [inFlight_eq hstream, pending_length], inFlight_le hfifo hcnt, fun w t _ hroom ht i hi => ?_⟩
  obtain ⟨-, -, ⟨hfull, -⟩ | ⟨-, rfl⟩⟩ := execEnq_next.mp ht
  · exact absurd (fifoFull_iff.mp hfull) (Nat.not_le.mpr hroom)
  have hpos : W - s.cnt + s.fifo.length * W + i = s.pending.length + i := by
    rw [pending_length, Nat.mul_comm W, Nat.add_comm (s.fifo.length * W)]
  have hbit : (pushWord w s).pending[s.pending.length + i]? = some (w.getLsbD i) := by
    rw [pushWord_pending, List.getElem?_append_right (Nat.le_add_right ..), Nat.add_sub_cancel_left,
      wordBits_getElem? w hi]
  obtain ⟨hlen, hemit⟩ := ticksN_emit_at hbit
  rw [hpos]
  exact ⟨(Nat.add_le_add_left hi _).trans (pending_add_word_le hroom hcnt), hlen, hemit⟩

/-! ### After a flush word -/

@[simp] theorem wordBits_zero : wordBits 0#32 = List.replicate 32 false := by decide

theorem ofBit_false : Level.ofBit false = .low := rfl

/-- Settles O30: the flush word's 32 zeros are the last of what is pending; its first one drives the line low, and
nothing but zeros comes after. -/
theorem lineIsLowAfterFlush : Obligations.LineIsLowAfterFlush := by
  rintro s t ⟨-, ⟨-, ⟨⟨hcnt, -⟩, -⟩, -⟩, -⟩ hroom ht n hn
  obtain ⟨-, -, ⟨hfull, -⟩ | ⟨-, rfl⟩⟩ := execFlush_next.mp ht
  · exact absurd (fifoFull_iff.mp hfull) (Nat.not_le.mpr hroom)
  obtain ⟨m, rfl⟩ : ∃ m, n = s.pending.length + (m + 1) := by
    have hlen : s.pending.length + 32 ≤ n := (pending_add_word_le hroom hcnt).trans hn
    exact ⟨n - s.pending.length - 1, by omega⟩
  have hzeros : (ticksN s.pending.length (pushWord 0#32 s)).pending = false :: List.replicate 31 false := by
    rw [(ticksN_emit_pending _ _).2, pushWord_pending, List.drop_left, wordBits_zero]
    rfl
  obtain ⟨hpending, -, hline⟩ := tick_emits hzeros
  rw [ticksN_add, ticksN]
  refine ticksN_line_low m _ hline fun b hb => ?_
  rw [hpending] at hb
  exact List.eq_of_mem_replicate (List.mem_of_mem_take hb)

/-- `u` is `s` with more emitted; and if those bits are zeros, a low line has stayed low. -/
def QuietAfter (s u : State) : Prop :=
  ∃ e, u.emit = s.emit ++ e ∧ ((∀ b ∈ e, b = false) → s.line = .low → u.line = .low)

theorem QuietAfter.of_same {s u : State} (he : u.emit = s.emit) (hl : s.line = .low → u.line = .low) : QuietAfter s u :=
  ⟨[], by rw [he, List.append_nil], fun _ => hl⟩

theorem QuietAfter.trans {s u v : State} (hsu : QuietAfter s u) (huv : QuietAfter u v) : QuietAfter s v := by
  obtain ⟨e, he, hl⟩ := hsu
  obtain ⟨e', he', hl'⟩ := huv
  refine ⟨e ++ e', by rw [he', he, List.append_assoc], fun hz hlow => ?_⟩
  rw [List.forall_mem_append] at hz
  exact hl' hz.2 (hl hz.1 hlow)

/-- No operation drives the line high but by a bit that it emits. -/
theorem Effect.quietAfter {i : Instr} {s t : State} (h : Effect s i t) : QuietAfter s t := by
  cases h with
  | @ticked _ n => exact ⟨_, (ticksN_emit_pending n s).1, fun hz hl => ticksN_line_low n s hl hz⟩
  | bound f p => exact .of_same rfl fun _ => ofBit_false
  | held | encoded | stored | failed | pushed | begun | sent | passEnded | flushed | cooling | cooled | called =>
    exact .of_same rfl id

/-- Settles O29: the pull of the flush word drives the line low, and then only zeros are emitted. -/
theorem flushReturnsLineToLow : Obligations.FlushReturnsLineToLow := by
  intro s rest hcnt hfifo
  have hempty : s.osrEmpty = true := osrEmpty_iff.mpr hcnt.ge
  have hs : s.pending = false :: (List.replicate 31 false ++ unpackWords rest) := by
    rw [State.pending, osrBits_of_empty hempty, hfifo, unpackWords_cons, wordBits_zero]
    rfl
  obtain ⟨hpending, -, hline⟩ := tick_emits hs
  have hlow : ∀ n, (∀ b ∈ (unpackWords rest).take (n - 31), b = false) → (ticksN n (tick s)).line = .low := by
    refine fun n hz => ticksN_line_low n _ hline fun b hb => ?_
    rw [hpending, List.take_append, List.length_replicate, List.mem_append] at hb
    exact hb.elim (fun h => List.eq_of_mem_replicate (List.mem_of_mem_take h)) (hz b)
  refine ⟨fun n hn => ?_, fun u hu => ?_⟩
  · obtain ⟨m, rfl⟩ := Nat.exists_eq_add_of_le' hn
    refine ⟨fun hm => hlow m ?_, fun hz => hlow m (by rwa [Nat.add_sub_add_right] at hz)⟩
    rw [Nat.sub_eq_zero_of_le (Nat.le_of_succ_le_succ hm)]
    simp
  · obtain ⟨e, he, hquiet⟩ := hu.keeps (P := QuietAfter (tick s)) (.of_same rfl id) fun i u v _ h hu => hu.trans h.quietAfter
    rw [he, List.drop_left]
    exact ⟨List.prefix_append .., fun hz => hquiet hz hline⟩

end Sys2Proof.Machine
end

section
/-! PROOFS. The tick steps one by one (41_sequencer.md R155 to R158), the word as its 32 ticks (R164), and when a held `ENQ`
is released (R153, R163). -/

namespace Sys2Proof.Machine

/-! ### Which tick step is taken, and its whole effect -/

theorem execTickShift_of_running {s : State} (hf : s.fault = none) (hs : s.started = true) :
    execTickShift s = if s.osrEmpty then .refused .notEnabled else .next (tick s) := by
  rw [execTickShift, ifRunning_of_running hf hs, ifEnabled]
  cases h : s.osrEmpty with
  | true => rfl
  | false => rw [tick_shift h]; rfl

theorem execTickPull_of_running {s : State} (hf : s.fault = none) (hs : s.started = true) :
    execTickPull s = if s.osrEmpty && !s.fifoEmpty then .next (tick s) else .refused .notEnabled := by
  rw [execTickPull, ifRunning_of_running hf hs]
  cases hq : s.fifo with
  | nil => simp [State.fifoEmpty, hq]
  | cons w rest =>
    cases h : s.osrEmpty with
    | true => rw [tick_pull h hq]; simp [State.fifoEmpty, hq, ifEnabled]
    | false => rfl

theorem execTickStarve_of_running {s : State} (hf : s.fault = none) (hs : s.started = true) :
    execTickStarve s = if s.osrEmpty && s.fifoEmpty then .next (tick s) else .refused .notEnabled := by
  rw [execTickStarve, ifRunning_of_running hf hs, ifEnabled]
  split
  next h =>
    obtain ⟨hc, hq⟩ := Bool.and_eq_true_iff.mp h
    rw [tick_starve hc (List.isEmpty_iff.mp hq)]
  next => rfl

/-- Settles O19: the three conditions of the table exclude each other; what all ticks share is `tick_frame`'s. -/
theorem exactlyOneTickStep : Obligations.ExactlyOneTickStep := by
  intro s hf hs _
  refine ⟨fun hlt => ?_, fun heq w rest hq => ?_, fun heq hq => ?_, tick_ticks s, tick_wave s, tick_cool s, tick_fbwait s⟩
  all_goals simp only [exec, execTickShift_of_running hf hs, execTickPull_of_running hf hs,
    execTickStarve_of_running hf hs]
  · have hc := osrEmpty_eq_false_iff.mpr hlt
    rw [hc, tick_shift hc]
    exact ⟨rfl, rfl, rfl, rfl⟩
  · have hc := osrEmpty_iff.mpr heq.ge
    rw [State.fifoEmpty, hc, hq, tick_pull hc hq]
    exact ⟨rfl, rfl, rfl, rfl⟩
  · have hc := osrEmpty_iff.mpr heq.ge
    rw [State.fifoEmpty, hc, hq, tick_starve hc hq]
    exact ⟨rfl, rfl, rfl, fun hp => by rw [starvedTick_line, hp]; rfl⟩

/-- Settles O20. -/
theorem tickPullCompletes : Obligations.TickPullCompletes := by
  intro s w rest hf hs hcnt hq
  have hc := osrEmpty_iff.mpr hcnt.ge
  exact execTickPull_next.mpr ⟨hf, hs, hc, by simp [hq], (tick_pull hc hq).symm⟩

/-- Settles O21. -/
theorem tickShiftCompletes : Obligations.TickShiftCompletes := by
  intro s hf hs _ hlt
  have hc := osrEmpty_eq_false_iff.mpr hlt
  exact execTickShift_next.mpr ⟨hf, hs, hc, (tick_shift hc).symm⟩

/-- Settles O22: the two hypotheses about `l` say that it is the policy's level. -/
theorem tickStarveCompletes : Obligations.TickStarveCompletes := by
  intro s hf hs hcnt hq l hhold hidle
  have hc := osrEmpty_iff.mpr hcnt.ge
  have hl : l = starvedLevel s.cfg.starvePolicy s.line := by
    cases hp : s.cfg.starvePolicy with
    | holdLast => exact hhold hp
    | idleLow => exact hidle hp
  rw [hl]
  exact execTickStarve_next.mpr ⟨hf, hs, hc, hq, (tick_starve hc hq).symm⟩

/-- Settles O31: the policy is in the configuration alone, so the starved tick is the same but for the line. -/
theorem starvePoliciesAgreeAfterLow : Obligations.StarvePoliciesAgreeAfterLow := by
  intro s p hf hs hcnt hq
  have hc : State.osrEmpty { s with cfg := { s.cfg with starvePolicy := p } } = true := osrEmpty_iff.mpr hcnt.ge
  refine ⟨_, execTickStarve_next.mpr ⟨hf, hs, hc, hq, rfl⟩, ?_⟩
  rw [tick_starve hc hq, starvedTick_line]
  refine ⟨fun hp => by rw [hp]; rfl, fun hp => by rw [hp]; rfl, fun hl => ?_⟩
  simp only [hl, starvedLevel_low]

/-! ### Symbols -/

theorem emitNext_of_ne {b : Bool} {s : State} (h : s.nextSymbol ≠ some b) : emitNext b s = .refused .symbolNotNext :=
  if_neg h

theorem nextSymbol_of_shift {s : State} (h : s.osrEmpty = false) : s.nextSymbol = some (s.osr.getLsbD 0) := by
  simp [State.nextSymbol, h]

theorem nextSymbol_of_pull {s : State} {w : Word} {rest : List Word} (h : s.osrEmpty = true) (hq : s.fifo = w :: rest) :
    s.nextSymbol = some (w.getLsbD 0) := by simp [State.nextSymbol, h, hq]

theorem nextSymbol_of_starve {s : State} (h : s.osrEmpty = true) (hq : s.fifo = []) : s.nextSymbol = none := by
  simp [State.nextSymbol, h, hq]

/-- Both symbols at once: the operation is `emitNext` of its bit. -/
theorem exec_symbol {b : Bool} {i : Instr} {s : State} (hi : (i = .symOn ∧ b = true) ∨ (i = .symOff ∧ b = false))
    (hf : s.fault = none) (hs : s.started = true) : exec i s = emitNext b s := by
  obtain ⟨rfl, rfl⟩ | ⟨rfl, rfl⟩ := hi
  all_goals exact ifRunning_of_running hf hs _

/-- Settles O26: `nextSymbol` says which symbol the tick takes, and the tick has its effect. -/
theorem symbolIsEmittedAtItsTick : Obligations.SymbolIsEmittedAtItsTick := by
  intro s b i hi hf hs
  rw [exec_symbol hi hf hs]
  refine ⟨fun hlt hb => ?_, fun heq w rest hq hb => ?_, fun hlt hb => ?_, fun heq w rest hq hb => ?_, fun heq hq => ?_⟩
  · have hc := osrEmpty_eq_false_iff.mpr hlt
    subst hb
    exact emitNext_next.mpr ⟨nextSymbol_of_shift hc, (tick_shift hc).symm⟩
  · have hc := osrEmpty_iff.mpr heq.ge
    subst hb
    exact emitNext_next.mpr ⟨nextSymbol_of_pull hc hq, (tick_pull hc hq).symm⟩
  · refine emitNext_of_ne ?_
    rw [nextSymbol_of_shift (osrEmpty_eq_false_iff.mpr hlt)]
    exact fun h => hb (Option.some.inj h)
  · refine emitNext_of_ne ?_
    rw [nextSymbol_of_pull (osrEmpty_iff.mpr heq.ge) hq]
    exact fun h => hb (Option.some.inj h)
  · refine emitNext_of_ne ?_
    rw [nextSymbol_of_starve (osrEmpty_iff.mpr heq.ge) hq]
    exact nofun

/-! ### A word and its 32 ticks -/

/-- The state when `k` symbols of the word `w`, pulled in `s`, have been emitted. -/
def wordTicked (w : Word) (rest : List Word) (k : Nat) (s : State) : State :=
  { s with
    fifo := rest, osr := w >>> k, cnt := k, line := Level.ofBit (w.getLsbD (k - 1))
    emit := s.emit ++ (List.range k).map w.getLsbD
    wave := s.wave ++ (List.range k).map fun n => Level.ofBit (w.getLsbD n)
    ticks := s.ticks + k
    cool := if s.ctl = .cooldown then s.cool + k else s.cool
    fbwait := if s.ctl = .transmitting then s.fbwait + k else s.fbwait }

theorem tick_wordTicked {w : Word} {rest : List Word} {k : Nat} {s : State} (hk : k < W) :
    tick (wordTicked w rest k s) = wordTicked w rest (k + 1) s := by
  have hc : (wordTicked w rest k s).osrEmpty = false := osrEmpty_eq_false_iff.mpr hk
  rw [tick_shift hc]
  simp only [shifted, countTick, shiftOsr, emitSymbol, wordTicked, List.range_succ, List.map_append, List.map_cons,
    List.map_nil, List.append_assoc, BitVec.getLsbD_ushiftRight, BitVec.shiftRight_add, Nat.add_sub_cancel, Nat.add_zero]
  congr 1 <;> split <;> rfl

/-- From the pull on, the word's ticks are as `wordTicked` says: all of them, for nothing interrupts a word (R164). -/
theorem ticksN_word {w : Word} {rest : List Word} {s : State} (hc : s.osrEmpty = true) (hq : s.fifo = w :: rest) :
    ∀ k, k < W → ticksN (k + 1) s = wordTicked w rest (k + 1) s
  | 0, _ => tick_pull hc hq
  | k + 1, hk => by
    rw [ticksN_succ, ticksN_word hc hq k (Nat.lt_of_succ_lt hk), tick_wordTicked hk]

theorem emitWord_of_ne {w : Word} {s : State} (h : s.nextWord ≠ some w) : emitWord w s = .refused .wordNotNext :=
  if_neg h

theorem exec_word {w : Word} {i : Instr} {s : State} (hi : i = .word w ∨ (i = .wordZero ∧ w = 0#32))
    (hf : s.fault = none) (hs : s.started = true) : exec i s = emitWord w s := by
  obtain rfl | ⟨rfl, rfl⟩ := hi
  all_goals exact ifRunning_of_running hf hs _

/-- Settles O27: after 32 of its ticks the word is gone, and the shift register with it. -/
theorem wordOccupiesItsTicks : Obligations.WordOccupiesItsTicks := by
  intro s w i hi hf hs
  rw [exec_word hi hf hs]
  refine ⟨fun rest heq hq => ?_, fun hlt => ?_, fun hq => ?_, fun v rest hq hv => ?_⟩
  · have hc := osrEmpty_iff.mpr heq.ge
    refine emitWord_next.mpr ⟨nextWord_eq_some.mpr ⟨hc, rest, hq⟩, ?_⟩
    rw [show W = 31 + 1 from rfl, ticksN_word hc hq 31 (by decide), wordTicked,
      BitVec.ushiftRight_eq_zero (x := w) (n := 31 + 1) (by decide)]
  all_goals refine emitWord_of_ne fun h => ?_
  all_goals obtain ⟨hc, q, hq'⟩ := nextWord_eq_some.mp h
  · exact absurd (osrEmpty_iff.mp hc) (Nat.not_le.mpr hlt)
  · rw [hq] at hq'; cases hq'
  · rw [hq] at hq'; cases hq'; exact hv rfl

/-! ### The FIFO under the ticks -/

/-- A tick that does not find the shift register empty leaves the FIFO. -/
theorem ticksN_shift : ∀ (n : Nat) (s : State), n ≤ W - s.cnt →
    (ticksN n s).fifo = s.fifo ∧ (ticksN n s).cnt = s.cnt + n
  | 0, _, _ => ⟨rfl, rfl⟩
  | n + 1, s, hn => by
    have hc : s.osrEmpty = false := osrEmpty_eq_false_iff.mpr (by omega)
    have hcnt : (shifted s).cnt = s.cnt + 1 := rfl
    obtain ⟨hq, hk⟩ := ticksN_shift n (shifted s) (by omega)
    rw [ticksN, tick_shift hc, hq, hk, hcnt]
    exact ⟨rfl, by omega⟩

/-- The tick after those pulls the head, if there is one. -/
theorem ticksN_pull (s : State) (hcnt : s.cnt ≤ W) : (ticksN (W - s.cnt + 1) s).fifo = s.fifo.tail := by
  obtain ⟨hq, hk⟩ := ticksN_shift _ s le_rfl
  have hc : (ticksN (W - s.cnt) s).osrEmpty = true := osrEmpty_iff.mpr (by omega)
  rw [ticksN_succ]
  cases h : s.fifo with
  | nil => rw [tick_starve hc (hq.trans h)]; exact hq.trans h
  | cons w rest => rw [tick_pull hc (hq.trans h)]; rfl

/-- Settles O18: the word in the shift register is shifted out and then the head is pulled, which leaves room. -/
theorem holdEndsWithinOneWord : Obligations.HoldEndsWithinOneWord := by
  rintro s ⟨⟨-, -, -, hdepth, -⟩, ⟨-, ⟨⟨hcnt1, hcnt⟩, -⟩, -, hdriven, -⟩, -⟩ hs hfull
  have hpull := ticksN_pull s hcnt
  refine ⟨by omega, fun n hn => (ticksN_shift n s hn).1, hpull, fun w => ?_⟩
  have hroom : (ticksN (W - s.cnt + 1) s).fifoFull = false := by
    rw [fifoFull_eq_false_iff, ticksN_cfg, hpull, List.length_tail]
    omega
  have hf : (ticksN (W - s.cnt + 1) s).fault = none := (ticksN_fault ..).trans (hdriven hs).2
  exact ⟨_, execEnq_next.mpr ⟨hf, (ticksN_started ..).trans hs, .inr ⟨hroom, rfl⟩⟩, by rw [pushWord_fifo, hpull]⟩

/-- What the operations do to the FIFO: nothing, a push where there is room, or the pull of the head. -/
theorem Effect.fifo {i : Instr} {s t : State} (h : Effect s i t) :
    t.fifo = s.fifo ∨ (s.fifoFull = false ∧ ∃ w, t.fifo = s.fifo ++ [w]) ∨
      s.osrEmpty = true ∧ (∃ rest w, s.fifo = w :: rest ∧ t.fifo = rest) ∧ (t = tick s ∨ t = ticksN W s) := by
  cases h with
  | ticked _ _ hn =>
    obtain rfl | ⟨rfl, w, hw⟩ := hn
    · obtain ⟨w, rest, hc, hq, ht⟩ | ⟨-, ht⟩ | ⟨-, -, ht⟩ := tick_cases s
      · exact .inr (.inr ⟨hc, ⟨rest, w, hq, congrArg State.fifo ht⟩, .inl rfl⟩)
      · exact .inl (show (tick s).fifo = s.fifo by rw [ht]; rfl)
      · exact .inl (show (tick s).fifo = s.fifo by rw [ht]; rfl)
    · obtain ⟨hc, rest, hq⟩ := nextWord_eq_some.mp hw
      exact .inr (.inr ⟨hc, ⟨rest, w, hq, congrArg State.fifo (ticksN_word hc hq 31 (by decide))⟩, .inr rfl⟩)
  | pushed w _ hroom => exact .inr (.inl ⟨hroom, w, rfl⟩)
  | sent _ _ _ _ _ hroom => exact .inr (.inl ⟨hroom, _, rfl⟩)
  | flushed _ _ _ hroom => exact .inr (.inl ⟨hroom, _, rfl⟩)
  | held | encoded | stored | failed | bound | begun | passEnded | cooling | cooled | called => exact .inl rfl

/-- Settles O17: of what an operation can do to the FIFO, only the pull makes it shorter. -/
theorem onlyPullEndsHold : Obligations.OnlyPullEndsHold := by
  intro s t i hexec hfull hroom
  have hcfg : t.cfg = s.cfg := (configurationNeverChanges i s t hexec).1
  obtain hsame | ⟨hroom', -⟩ | ⟨hc, hpull⟩ := (effect_of_exec hexec).fifo
  · rw [State.fifoFull, hcfg, hsame] at hroom
    exact absurd (hfull.symm.trans hroom) (by decide)
  · exact absurd (hfull.symm.trans hroom') (by decide)
  · exact ⟨osrEmpty_iff.mp hc, hpull⟩

end Sys2Proof.Machine
end

section
/-! PROOFS. What each agent can do to the line and to the sequencer (41_sequencer.md R160, 42_ook_output_gpio.md R185,
20_memory.md R75, R87). -/

namespace Sys2Proof.Machine

/-- Settles O32: the effects of the sequencer's own operations are the ticks and the two of `START`. -/
theorem otherAgentsLeaveSequencerAlone : Obligations.OtherAgentsLeaveSequencerAlone := by
  intro i s t hi h
  cases effect_of_exec h with
  | ticked _ hseq => exact absurd (hi.symm.trans hseq) (by decide)
  | failed | bound => cases hi
  | pushed | sent | flushed => exact ⟨rfl, rfl, rfl, rfl, rfl, rfl, rfl, rfl, rfl, rfl, .inr ⟨_, rfl, rfl⟩⟩
  | held | encoded | stored | begun | passEnded | cooling | cooled | called =>
    exact ⟨rfl, rfl, rfl, rfl, rfl, rfl, rfl, rfl, rfl, rfl, .inl ⟨rfl, rfl⟩⟩

/-- The symbol that a tick is to emit is the level it leaves. -/
theorem tick_line_of_nextSymbol {s : State} {b : Bool} (h : s.nextSymbol = some b) : (tick s).line = Level.ofBit b := by
  obtain ⟨w, rest, hc, hq, ht⟩ | ⟨hc, ht⟩ | ⟨hc, hq, -⟩ := tick_cases s
  · rw [nextSymbol_of_pull hc hq, Option.some.injEq] at h
    rw [ht, ← h]
    rfl
  · rw [nextSymbol_of_shift hc, Option.some.injEq] at h
    rw [ht, ← h]
    rfl
  · rw [nextSymbol_of_starve hc hq] at h
    cases h

/-- A word leaves its last bit on the line. -/
theorem ticksN_line_of_nextWord {s : State} {w : Word} (h : s.nextWord = some w) :
    (ticksN W s).line = Level.ofBit (w.getLsbD 31) := by
  obtain ⟨hc, rest, hq⟩ := nextWord_eq_some.mp h
  rw [show W = 31 + 1 from rfl, ticksN_word hc hq 31 (by decide)]
  rfl

/-- Settles O28: the rows of `START`, of the ticks and of what they emit; every other row is O32's. -/
theorem lineTransitionTable : Obligations.LineTransitionTable := by
  intro i s t h
  cases i with
  | start f p =>
    obtain ⟨hf, hs, ⟨-, rfl⟩ | ⟨-, rfl⟩⟩ := execStart_next.mp h
    · exact .inr ⟨hs, by simp, rfl⟩
    · exact .inl ⟨rfl, hf, rfl⟩
  | tickPull =>
    obtain ⟨-, -, hc, hne, rfl⟩ := execTickPull_next.mp h
    obtain ⟨w, rest, hq⟩ := List.exists_cons_of_ne_nil hne
    exact ⟨w, rest, hq, by rw [tick_pull hc hq]; rfl⟩
  | tickShift =>
    obtain ⟨-, -, hc, rfl⟩ := execTickShift_next.mp h
    exact tick_line_of_nextSymbol (nextSymbol_of_shift hc)
  | tickStarve =>
    obtain ⟨-, -, hc, hq, rfl⟩ := execTickStarve_next.mp h
    simp only [tick_starve hc hq, starvedTick_line]
    cases s.cfg.starvePolicy <;> rfl
  | symOn =>
    obtain ⟨-, -, hb, rfl⟩ := execSymOn_next.mp h
    exact tick_line_of_nextSymbol hb
  | symOff =>
    obtain ⟨-, -, hb, rfl⟩ := execSymOff_next.mp h
    exact tick_line_of_nextSymbol hb
  | word w =>
    obtain ⟨-, -, hw, ht⟩ := execWord_next.mp h
    rw [ht]
    exact ticksN_line_of_nextWord hw
  | wordZero =>
    obtain ⟨-, -, hw, ht⟩ := execWordZero_next.mp h
    rw [ht]
    exact ticksN_line_of_nextWord hw
  | encode | enq | flush | ctlBegin | ctlSend | ctlEndPass | ctlToFlush | ctlToCool | ctlCoolDone | fbToggle | fbIdle =>
    exact (otherAgentsLeaveSequencerAlone _ s t rfl h).1

/-! ### What the ticks read -/

/-- The sequencer's state as R160 lists it, with the policy it follows. -/
def State.sequencer (s : State) : (StarvePolicy × List Word × Word × Nat) × Level × List Bool × List Level :=
  ((s.cfg.starvePolicy, s.fifo, s.osr, s.cnt), s.line, s.emit, s.wave)

theorem sequencer_eq_iff {a b : State} :
    a.sequencer = b.sequencer ↔
      (a.cfg.starvePolicy = b.cfg.starvePolicy ∧ a.fifo = b.fifo ∧ a.osr = b.osr ∧ a.cnt = b.cnt) ∧
        a.line = b.line ∧ a.emit = b.emit ∧ a.wave = b.wave := by
  simp [State.sequencer]

/-- Two states with one sequencer state take the same of the three tick steps, to the same sequencer state. -/
theorem tick_sequencer_congr {a b : State} (h : a.sequencer = b.sequencer) :
    (tick a).sequencer = (tick b).sequencer := by
  obtain ⟨⟨hpolicy, hfifo, hosr, hcnt⟩, hline, hemit, hwave⟩ := sequencer_eq_iff.mp h
  have hempty : b.osrEmpty = a.osrEmpty := by rw [State.osrEmpty, State.osrEmpty, hcnt]
  obtain ⟨w, rest, hc, hq, ht⟩ | ⟨hc, ht⟩ | ⟨hc, hq, ht⟩ := tick_cases a
  · rw [ht, tick_pull (hempty.trans hc) (hfifo.symm.trans hq)]
    simp [State.sequencer, pulled, hpolicy, hemit, hwave]
  · rw [ht, tick_shift (hempty.trans hc)]
    simp [State.sequencer, shifted, hpolicy, hfifo, hosr, hcnt, hemit, hwave]
  · rw [ht, tick_starve (hempty.trans hc) (hfifo.symm.trans hq)]
    simp [State.sequencer, starvedTick, hpolicy, hfifo, hosr, hcnt, hline, hemit, hwave]

theorem ticksN_sequencer_congr : ∀ (n : Nat) {a b : State}, a.sequencer = b.sequencer →
    (ticksN n a).sequencer = (ticksN n b).sequencer
  | 0, _, _, h => h
  | n + 1, _, _, h => ticksN_sequencer_congr n (tick_sequencer_congr h)

/-- Settles O33. -/
theorem ticksReadSequencerOnly : Obligations.TicksReadSequencerOnly := by
  intro a b n hpolicy hfifo hosr hcnt hline hemit hwave
  have hab := sequencer_eq_iff.mpr ⟨⟨hpolicy, hfifo, hosr, hcnt⟩, hline, hemit, hwave⟩
  obtain ⟨⟨-, hfifo', hosr', hcnt'⟩, hline', hemit', hwave'⟩ := sequencer_eq_iff.mp (ticksN_sequencer_congr n hab)
  exact ⟨hfifo', hosr', hcnt', hline', hemit', hwave'⟩

/-! ### A pull and a push -/

theorem execEnq_of_room {s : State} (hf : s.fault = none) (hs : s.started = true)
    (h : s.fifo.length < s.cfg.fifoDepth) (w : Word) : execEnq w s = .next (pushWord w s) :=
  execEnq_next.mpr ⟨hf, hs, .inr ⟨fifoFull_eq_false_iff.mpr h, rfl⟩⟩

theorem execEnq_of_full {s : State} (hf : s.fault = none) (hs : s.started = true)
    (h : s.cfg.fifoDepth ≤ s.fifo.length) (w : Word) : execEnq w s = .next s :=
  execEnq_next.mpr ⟨hf, hs, .inl ⟨fifoFull_iff.mpr h, rfl⟩⟩

/-- At a pull the push is at the other end of the FIFO. -/
theorem tick_pushWord {s : State} {h w : Word} {rest : List Word} (hc : s.osrEmpty = true) (hq : s.fifo = h :: rest) :
    tick (pushWord w s) = pushWord w (tick s) := by
  have hq' : (pushWord w s).fifo = h :: (rest ++ [w]) := by rw [pushWord_fifo, hq, List.cons_append]
  rw [tick_pull hc hq, tick_pull (s := pushWord w s) hc hq']
  rfl

/-- Settles O34. -/
theorem pullAndPushInEitherOrder : Obligations.PullAndPushInEitherOrder := by
  intro s w hf hs hcnt
  have hc := osrEmpty_iff.mpr hcnt.ge
  have hf' : (tick s).fault = none := (tick_fault s).trans hf
  have hs' : (tick s).started = true := (tick_started s).trans hs
  have hroom {h : Word} {rest : List Word} (hq : s.fifo = h :: rest) (hle : s.fifo.length ≤ s.cfg.fifoDepth) :
      (tick s).fifo.length < (tick s).cfg.fifoDepth := by
    rw [tick_cfg, tick_pull hc hq]
    rw [hq] at hle
    exact hle
  refine ⟨fun h rest hq hlt => ?middle, fun h rest hq heq => ?full, fun hq hdepth => ?empty⟩
  case middle =>
    refine ⟨_, execEnq_of_room hf hs hlt w, ?_⟩
    rw [tick_pushWord hc hq]
    exact execEnq_of_room hf' hs' (hroom hq hlt.le) w
  case full =>
    refine ⟨execEnq_of_full hf hs heq.ge w, _, execEnq_of_room hf' hs' (hroom hq heq.le) w, ?_, ?_⟩
    · rw [pushWord_enqs, tick_enqs]
    · rw [pushWord_fifo, tick_pull hc hq]
      rfl
  case empty =>
    have ht := tick_starve hc hq
    have hroom' : (tick s).fifo.length < (tick s).cfg.fifoDepth := by
      rw [ht]
      exact (congrArg List.length hq).trans_lt hdepth
    have hqa : (pushWord w s).fifo = w :: [] := by rw [pushWord_fifo, hq]; rfl
    have hqb : (pushWord w (tick s)).fifo = w :: [] := by rw [pushWord_fifo, ht]; exact congrArg (· ++ [w]) hq
    have hcb : (pushWord w (tick s)).osrEmpty = true := by rw [ht]; exact hc
    refine ⟨_, _, execEnq_of_room hf hs (by rw [hq]; exact hdepth) w, execEnq_of_room hf' hs' hroom' w, ?_⟩
    rw [tick_pull (s := pushWord w s) hc hqa, tick_pull hcb hqb, ht]
    refine ⟨rfl, rfl, rfl, ?_⟩
    simp [pulled, starvedTick]

end Sys2Proof.Machine
end

section
/-! PROOFS. What each operation of BOOT, of the producers and of the controller answers, case by case (40_encoder.md,
41_sequencer.md R150 to R154, R162, 43_controller.md R201 to R206, R212, R213). -/

namespace Sys2Proof.Machine

/-! ### Refusals that need no look at the operation -/

theorem ifNoFault_fault {s : State} {c : Causes} (h : s.fault = some c) (k : Result) :
    ifNoFault s k = .refused .afterFault := by simp [ifNoFault, h]

/-- The gate of R162 (c) and R240 stands before every operation. -/
theorem exec_of_fault {s : State} {c : Causes} (h : s.fault = some c) (i : Instr) : exec i s = .refused .afterFault := by
  cases i with
  | encode | start => exact ifNoFault_fault h _
  | symOn | symOff | word | wordZero | enq | flush | tickPull | tickShift | tickStarve | ctlBegin | ctlSend | ctlEndPass
  | ctlToFlush | ctlToCool | ctlCoolDone | fbToggle | fbIdle => exact ifRunning_fault h _

/-- And before every operation but BOOT's, the gate of R162 (a), R167 and R217. -/
theorem exec_not_started {s : State} (hf : s.fault = none) (hs : s.started = false) {i : Instr}
    (hencode : ∀ b w, i ≠ .encode b w) (hstart : ∀ f p, i ≠ .start f p) : exec i s = .refused .notStarted := by
  cases i with
  | encode b w => exact absurd rfl (hencode b w)
  | start f p => exact absurd rfl (hstart f p)
  | symOn | symOff | word | wordZero | enq | flush | tickPull | tickShift | tickStarve | ctlBegin | ctlSend | ctlEndPass
  | ctlToFlush | ctlToCool | ctlCoolDone | fbToggle | fbIdle => exact ifRunning_not_started hf hs _

theorem step_nil_of_fault {s : State} {c : Causes} (hf : s.fault = some c) (ht : s.trace = []) :
    step s = .fault (.configError c) := by
  simp only [step, ht, hf]

theorem holds_of_fault {s : State} {c : Causes} (hf : s.fault = some c) (i : Instr) : holds i s = false := by
  have hrun : s.running = false := by simp [State.running, hf]
  cases i <;> simp [holds, hrun]

/-- Settles O14: the step is a fault, the refusal of its line, or the refusal of the operation. -/
theorem nothingStepsAfterFault : Obligations.NothingStepsAfterFault := by
  intro s c hf
  refine ⟨exec_of_fault hf, fun t => ?_, step_nil_of_fault hf⟩
  cases ht : s.trace with
  | nil => rw [step_nil_of_fault hf ht]; exact nofun
  | cons line rest =>
    simp only [step, ht]
    cases decode line with
    | none => exact nofun
    | some i =>
      have hexec := exec_of_fault (s := withTrace rest s) hf i
      simp only [holds_of_fault hf i, hexec]
      exact nofun

/-- Settles O15. -/
theorem misuseIsRefused : Obligations.MisuseIsRefused := by
  refine fun s w f p => ⟨fun hf hs => ⟨?_, ?_, ?_, ?_, ?_⟩, fun hf hs => ?_, fun hf i => ?_⟩
  case refine_6 => simp only [exec, execStart, ifNoFault_of_none hf, if_pos hs]
  case refine_7 =>
    obtain ⟨c, hc⟩ := Option.ne_none_iff_exists'.mp hf
    exact exec_of_fault hc i
  all_goals exact exec_not_started hf hs nofun nofun

/-! ### `ENCODE` and `START` -/

/-- Settles O11: the three cases are those of `isBootEncode` and of the width. -/
theorem encodeCompletes : Obligations.EncodeCompletes := by
  intro s bits width hf
  refine ⟨fun hw hother => ?_, fun hopen => ?_, ?_⟩
  · have hboot : ¬isBootEncode bits width s = true := fun h => hother (isBootEncode_iff.mp h)
    exact execEncode_next.mpr ⟨hf, Nat.one_le_iff_ne_zero.mp hw, by rw [if_neg hboot]; rfl⟩
  · have hboot : isBootEncode s.bits 32 s = true := isBootEncode_iff.mpr ⟨hopen, rfl, rfl⟩
    exact execEncode_next.mpr ⟨hf, by decide, by rw [if_pos hboot]; rfl⟩
  · simp only [exec, execEncode, ifNoFault_of_none hf, if_pos]

theorem pinOk_iff {c : Config} {p : Nat} : c.pinOk p = true ↔ p < c.pinCount ∧ p ∈ c.pinsAvailable := by
  simp [Config.pinOk]

theorem realizable_iff {c : Config} {f : Nat} :
    c.realizable f = true ↔ 1 ≤ f ∧ c.fSys % f = 0 ∧ 1 ≤ c.fSys / f ∧ c.fSys / f ≤ c.divMax := by
  simp only [Config.realizable, Bool.and_eq_true, decide_eq_true_iff, and_assoc]

theorem startCauses_any {c : Config} {f : BitVec 32} {p : Nat} :
    (startCauses c f p).any = false ↔ c.pinOk p = true ∧ c.realizable f.toNat = true := by
  simp [startCauses, Causes.any, and_comm]

theorem execStart_of_ok {s : State} {f : BitVec 32} {p : Nat} (hf : s.fault = none) (hs : s.started = false)
    (hp : s.cfg.pinOk p = true) (hr : s.cfg.realizable f.toNat = true) : execStart f p s = .next (bindSequencer f p s) :=
  execStart_next.mpr ⟨hf, hs, .inr ⟨startCauses_any.mpr ⟨hp, hr⟩, rfl⟩⟩

theorem execStart_of_bad {s : State} {f : BitVec 32} {p : Nat} (hf : s.fault = none) (hs : s.started = false)
    (h : ¬(s.cfg.pinOk p = true ∧ s.cfg.realizable f.toNat = true)) :
    execStart f p s = .next (takeConfigError (startCauses s.cfg f p) s) := by
  refine execStart_next.mpr ⟨hf, hs, .inl ⟨?_, rfl⟩⟩
  rwa [← startCauses_any, Bool.not_eq_false] at h

/-- Settles O12. -/
theorem startCompletes : Obligations.StartCompletes := by
  intro s f p hf hs hlt hav h1 hdiv hlo hhi
  exact execStart_of_ok hf hs (pinOk_iff.mpr ⟨hlt, hav⟩) (realizable_iff.mpr ⟨h1, hdiv, hlo, hhi⟩)

/-- Settles O13: the causes are the negations of the two checks. -/
theorem startTakesConfigError : Obligations.StartTakesConfigError := by
  intro s f p hf hs badPin badFreq hbad
  have hpin : s.cfg.pinOk p = true ↔ ¬badPin := pinOk_iff.trans not_not.symm
  have hfreq : s.cfg.realizable f.toNat = true ↔ ¬badFreq := realizable_iff.trans not_not.symm
  refine ⟨startCauses s.cfg f p, ?_, ?_, execStart_of_bad hf hs ?_⟩
  · rw [startCauses, Bool.not_eq_true', ← Bool.not_eq_true, hpin, not_not]
  · rw [startCauses, Bool.not_eq_true', ← Bool.not_eq_true, hfreq, not_not]
  · rw [hpin, hfreq, ← not_or, not_not]
    exact hbad

/-! ### `ENQ` and `FLUSH` -/

/-- Settles O16: `FLUSH` is `ENQ` of the zero word. -/
theorem enqAppendsOrHolds : Obligations.EnqAppendsOrHolds := by
  intro s w
  have hflush : execFlush s = execEnq 0#32 s := rfl
  refine ⟨fun h => ?_, fun hf hs hroom => ?_, fun hf hs hfull => ?_⟩
  · cases hf : s.fault with
    | some c => exact ⟨_, _, exec_of_fault hf _, exec_of_fault hf _⟩
    | none =>
      have hs : s.started = false := h.resolve_right (not_not.mpr hf)
      exact ⟨_, _, exec_not_started hf hs nofun nofun, exec_not_started hf hs nofun nofun⟩
  · exact ⟨execEnq_of_room hf hs hroom w, hflush.trans (execEnq_of_room hf hs hroom 0#32)⟩
  · exact ⟨execEnq_of_full hf hs hfull.ge w, hflush.trans (execEnq_of_full hf hs hfull.ge 0#32)⟩

/-! ### The controller's transitions -/

/-- Setting a controller field to what it holds is no change. -/
theorem setCtl_state {m : CtlState} {s : State} (h : s.ctl = m) (r j : Nat) :
    setCtl m r j s = { s with r := r, j := j } := by subst h; rfl

/-- Settles O35. -/
theorem ctlBeginCompletes : Obligations.CtlBeginCompletes := by
  intro s hf hs hctl hws
  refine ⟨fun hr => execCtlBegin_next.mpr ⟨hf, hs, hctl, hws, Nat.one_le_iff_ne_zero.mp hr, rfl⟩, fun hr => ?_⟩
  have hdue : s.beginDue = true := by rw [State.beginDue, hctl, hws]; rfl
  simp only [exec, execCtlBegin, ifRunning_of_running hf hs, ifEnabled, if_pos hdue, if_pos hr]

/-- Settles O36. -/
theorem ctlSendCompletes : Obligations.CtlSendCompletes := by
  intro s w hf hs hctl hr hw
  obtain ⟨hj, hword⟩ := List.getElem?_eq_some_iff.mp hw
  have hread : s.memRead s.j = w := by rw [State.memRead, List.getD_eq_getElem _ _ hj, hword]
  refine ⟨fun hfb hroom => ?_, fun hwait => ?_⟩
  · refine execCtlSend_next.mpr ⟨hf, hs, hctl, hr, hj, .inr ⟨⟨hfb, fifoFull_eq_false_iff.mpr hroom⟩, ?_⟩⟩
    rw [hread, setCtl_state (s := pushWord w s) hctl]
    rfl
  · exact execCtlSend_next.mpr ⟨hf, hs, hctl, hr, hj, .inl ⟨hwait.imp_right fun h => fifoFull_iff.mpr h.ge, rfl⟩⟩

/-- Settles O37. -/
theorem ctlEndPassCompletes : Obligations.CtlEndPassCompletes := by
  intro s hf hs hctl hr hj
  refine execCtlEndPass_next.mpr ⟨hf, hs, hctl, hr, hj, ?_⟩
  rw [setCtl_state (s := callFb .toggle s) hctl]
  rfl

/-- Settles O38. -/
theorem ctlToFlushCompletes : Obligations.CtlToFlushCompletes := by
  intro s hf hs hctl hr
  exact ⟨fun hroom => execCtlToFlush_next.mpr ⟨hf, hs, hctl, hr, .inr ⟨fifoFull_eq_false_iff.mpr hroom, rfl⟩⟩,
    fun hfull => execCtlToFlush_next.mpr ⟨hf, hs, hctl, hr, .inl ⟨fifoFull_iff.mpr hfull.ge, rfl⟩⟩⟩

/-- Settles O39. -/
theorem ctlToCoolCompletes : Obligations.CtlToCoolCompletes :=
  fun _ hf hs hctl => execCtlToCool_next.mpr ⟨hf, hs, hctl, rfl⟩

/-- Settles O40. -/
theorem ctlCoolDoneCompletes : Obligations.CtlCoolDoneCompletes := by
  intro s hf hs hctl
  exact ⟨fun hover => execCtlCoolDone_next.mpr ⟨hf, hs, hctl, .inr ⟨hover, rfl⟩⟩,
    fun hwait => execCtlCoolDone_next.mpr ⟨hf, hs, hctl, .inl ⟨hwait, rfl⟩⟩⟩

/-- Settles O41. -/
theorem feedbackCallsComplete : Obligations.FeedbackCallsComplete := by
  intro s hf
  exact ⟨fun hs => ⟨execFbToggle_next.mpr ⟨hf, hs, rfl⟩, execFbIdle_next.mpr ⟨hf, hs, rfl⟩⟩,
    fun hs => ⟨exec_not_started hf hs nofun nofun, exec_not_started hf hs nofun nofun⟩⟩

end Sys2Proof.Machine
end

section
/-! PROOFS. The invariant (10_state.md R52), clause by clause: each clause is kept by every effect, and so by every
operation, by every step of the machine and along every history. -/

namespace Sys2Proof.Machine

/-! ### The configuration -/

theorem Effect.cfg {i : Instr} {s t : State} (h : Effect s i t) : t.cfg = s.cfg := by
  cases h with
  | @ticked _ n => exact ticksN_cfg n s
  | held | encoded | stored | failed | bound | pushed | begun | sent | passEnded | flushed | cooling | cooled | called => rfl

/-! ### The sequencer's clauses -/

theorem Effect.fifoBounded {i : Instr} {s t : State} (h : Effect s i t) (hs : s.FifoBounded) : t.FifoBounded := by
  rw [State.FifoBounded] at hs ⊢
  rw [h.cfg]
  obtain hsame | ⟨hroom, w, hpush⟩ | ⟨-, ⟨rest, w, hq, hpull⟩, -⟩ := h.fifo
  · rwa [hsame]
  · rw [hpush, List.length_append]
    exact fifoFull_eq_false_iff.mp hroom
  · rw [hpull]
    rw [hq] at hs
    exact Nat.le_of_succ_le hs

/-- A register of `n + 1` significant bits has `n` of them after a shift. -/
theorem ushiftRight_one_toNat_lt {v : Word} {n : Nat} (h : v.toNat < 2 ^ (n + 1)) : (v >>> 1).toNat < 2 ^ n := by
  rw [BitVec.toNat_ushiftRight, Nat.shiftRight_eq_div_pow, Nat.pow_one]
  exact Nat.div_lt_of_lt_mul (by rwa [Nat.pow_succ'] at h)

theorem tick_shiftRegisterWf {s : State} (hs : s.ShiftRegisterWf) : (tick s).ShiftRegisterWf := by
  obtain ⟨⟨hlo, hhi⟩, hosr⟩ := hs
  obtain ⟨w, rest, -, -, ht⟩ | ⟨hc, ht⟩ | ⟨-, -, ht⟩ := tick_cases s
  · rw [ht]
    exact ⟨⟨le_rfl, Nat.le_add_left 1 31⟩, ushiftRight_one_toNat_lt w.isLt⟩
  · have hlt := osrEmpty_eq_false_iff.mp hc
    have hsub : W - s.cnt = W - (s.cnt + 1) + 1 := by omega
    rw [hsub] at hosr
    rw [ht]
    exact ⟨⟨Nat.le_add_left .., hlt⟩, ushiftRight_one_toNat_lt hosr⟩
  · rw [ht]
    exact ⟨⟨hlo, hhi⟩, hosr⟩

theorem Effect.shiftRegisterWf {i : Instr} {s t : State} (h : Effect s i t) (hs : s.ShiftRegisterWf) :
    t.ShiftRegisterWf := by
  cases h with
  | @ticked _ n => exact ticksN_keeps (P := State.ShiftRegisterWf) (fun _ => tick_shiftRegisterWf) n s hs
  | held | encoded | stored | failed | bound | pushed | begun | sent | passEnded | flushed | cooling | cooled | called =>
    exact hs

theorem not_started_absurd {s : State} {p : Prop} (hrun : s.running = true) (hs : s.started = false) : p :=
  absurd ((running_iff.mp hrun).2.symm.trans hs) (by decide)

/-- Before `START` only BOOT's `ENCODE` and a failing `START` change anything, and nothing that this clause names. -/
theorem Effect.quietBeforeStart {i : Instr} {s t : State} (h : Effect s i t) (hs : s.QuietBeforeStart) :
    t.QuietBeforeStart := by
  cases h with
  | encoded | stored | failed => exact hs
  | bound => exact nofun
  | @ticked _ n hrun => exact fun h0 => not_started_absurd hrun ((ticksN_started n s).symm.trans h0)
  | held hrun | pushed _ hrun | begun hrun | sent hrun | passEnded hrun | flushed hrun | cooling hrun | cooled hrun
  | called _ hrun => exact fun h0 => not_started_absurd hrun h0

theorem tick_driven {s : State} (hs : s.DrivenOnceStarted) : (tick s).DrivenOnceStarted := by
  intro hstarted
  rw [tick_started] at hstarted
  obtain ⟨hline, hfault⟩ := hs hstarted
  refine ⟨?_, by rw [tick_fault, hfault]⟩
  have hbit : ∀ b, Level.ofBit b = .low ∨ Level.ofBit b = .high := by decide
  obtain ⟨w, rest, -, -, ht⟩ | ⟨-, ht⟩ | ⟨-, -, ht⟩ := tick_cases s
  · rw [ht]; exact hbit _
  · rw [ht]; exact hbit _
  · rw [ht, starvedTick_line]
    cases s.cfg.starvePolicy with
    | holdLast => exact hline
    | idleLow => exact .inl rfl

theorem Effect.drivenOnceStarted {i : Instr} {s t : State} (h : Effect s i t) (hs : s.DrivenOnceStarted) :
    t.DrivenOnceStarted := by
  cases h with
  | @ticked _ n => exact ticksN_keeps (P := State.DrivenOnceStarted) (fun _ => tick_driven) n s hs
  | failed _ _ _ hstarted => exact fun h1 => absurd (hstarted.symm.trans h1) (by decide)
  | bound _ _ hfault => exact fun _ => ⟨.inl rfl, hfault⟩
  | held | encoded | stored | pushed | begun | sent | passEnded | flushed | cooling | cooled | called => exact hs

theorem tick_historyLengths {s : State} (hs : s.HistoryLengths) : (tick s).HistoryLengths := by
  obtain ⟨hwave, hemit⟩ := hs
  refine ⟨by rw [tick_wave, List.length_append, hwave, tick_ticks]; rfl, ?_⟩
  rw [tick_ticks]
  cases h : s.pending with
  | nil => rw [tick_of_pending_nil h]; exact Nat.le_succ_of_le hemit
  | cons b rest => rw [(tick_emits h).2.1, List.length_append]; exact Nat.succ_le_succ hemit

theorem Effect.historyLengths {i : Instr} {s t : State} (h : Effect s i t) (hs : s.HistoryLengths) :
    t.HistoryLengths := by
  cases h with
  | @ticked _ n => exact ticksN_keeps (P := State.HistoryLengths) (fun _ => tick_historyLengths) n s hs
  | held | encoded | stored | failed | bound | pushed | begun | sent | passEnded | flushed | cooling | cooled | called =>
    exact hs

/-! ### The emitted-stream law -/

theorem streamLaw_iff {s : State} : s.StreamLaw ↔ s.emit ++ s.pending = unpackWords s.enqs := by
  rw [State.StreamLaw, List.append_assoc, State.pending]

theorem ticksN_streamLaw {s : State} (hs : s.StreamLaw) (n : Nat) : (ticksN n s).StreamLaw := by
  obtain ⟨hemit, hpending⟩ := ticksN_emit_pending n s
  rw [streamLaw_iff] at hs ⊢
  rw [hemit, hpending, List.append_assoc, List.take_append_drop, ticksN_enqs, hs]

/-- An accepted word joins the pending bits and the record of accepted words alike. -/
theorem pushWord_streamLaw {s : State} (hs : s.StreamLaw) (w : Word) : (pushWord w s).StreamLaw := by
  rw [streamLaw_iff] at hs ⊢
  rw [pushWord_pending, pushWord_emit, pushWord_enqs, ← List.append_assoc, hs]
  simp

theorem Effect.streamLaw {i : Instr} {s t : State} (h : Effect s i t) (hs : s.StreamLaw) : t.StreamLaw := by
  cases h with
  | @ticked _ n => exact ticksN_streamLaw hs n
  | pushed | sent | flushed => exact pushWord_streamLaw hs _
  | held | encoded | stored | failed | bound | begun | passEnded | cooling | cooled | called => exact hs

/-! ### The controller's clauses -/

theorem Effect.faultIsTerminal {i : Instr} {s t : State} (h : Effect s i t) (hs : s.FaultIsTerminal)
    (hboot : s.BootOrder) : t.FaultIsTerminal := by
  cases h with
  | failed _ _ _ hstarted => exact fun _ => ⟨hstarted, hboot.1 (.inl hstarted)⟩
  | bound _ _ hfault => exact fun h => absurd hfault h
  | ticked => simpa only [State.FaultIsTerminal, ticksN_started, ticksN_ctl, ticksN_fault] using hs
  | held hrun | pushed _ hrun | begun hrun | sent hrun | passEnded hrun | flushed hrun | cooling hrun | cooled hrun
  | called _ hrun => exact fun h => absurd (running_iff.mp hrun).1 h
  | encoded _ _ hfault | stored hfault => exact fun h => absurd hfault h

theorem Effect.countersInRange {i : Instr} {s t : State} (h : Effect s i t) (hs : s.CountersInRange)
    (hboot : s.BootOrder) : t.CountersInRange := by
  obtain ⟨hr, hj, hj0, hr0⟩ := hs
  obtain ⟨hidle, hlast, -, -⟩ := hboot
  cases h with
  | ticked =>
    simp only [State.CountersInRange, State.streamLen, ticksN_cfg, ticksN_ws, ticksN_ctl, ticksN_r, ticksN_j]
    exact ⟨hr, hj, hj0, hr0⟩
  | stored _ hopen =>
    have hctl := hidle (.inr hopen)
    have hj' : s.j = 0 := hj0 (by rw [hctl]; decide)
    exact ⟨hr, hj'.trans_le (Nat.zero_le _), fun _ => hj', hr0⟩
  | begun => exact ⟨Nat.zero_le _, Nat.zero_le _, fun _ => rfl, fun _ => rfl⟩
  | sent _ _ _ hlt => exact ⟨hr, hlt, fun h => absurd rfl h, nofun⟩
  | passEnded _ _ hlt => exact ⟨hlt, Nat.zero_le _, fun _ => rfl, nofun⟩
  | flushed _ _ heq => exact ⟨hr, hj, fun _ => hlast heq, nofun⟩
  | cooling _ hctl => exact ⟨hr, hj, fun _ => hj0 (by rw [hctl]; decide), nofun⟩
  | cooled => exact ⟨Nat.zero_le _, Nat.zero_le _, fun _ => rfl, fun _ => rfl⟩
  | held | encoded | failed | bound | pushed | called => exact ⟨hr, hj, hj0, hr0⟩

/-- Out of `Idle` the machine is booted. -/
theorem booted_of_ctl {s : State} (hboot : s.BootOrder) (h : s.ctl ≠ .idle) : s.started = true ∧ s.wsStored = true := by
  refine ⟨?_, ?_⟩
  · exact Bool.eq_true_of_not_eq_false fun hf => h (hboot.1 (.inl hf))
  · exact Bool.eq_true_of_not_eq_false fun hf => h (hboot.1 (.inr hf))

theorem booted_absurd {s : State} {p : Prop} (h : s.started = true ∧ s.wsStored = true)
    (hnot : s.started = false ∨ s.wsStored = false) : p := by
  obtain hf | hf := hnot
  · exact absurd (h.1.symm.trans hf) (by decide)
  · exact absurd (h.2.symm.trans hf) (by decide)

theorem Effect.bootOrder {i : Instr} {s t : State} (h : Effect s i t) (hboot : s.BootOrder) : t.BootOrder := by
  have hout := booted_of_ctl hboot
  obtain ⟨hidle, hlast, hpasses, hws⟩ := hboot
  cases h with
  | ticked =>
    simp only [State.BootOrder, ticksN_cfg, ticksN_bits, ticksN_wsStored, ticksN_ws, ticksN_started, ticksN_ctl, ticksN_r,
      ticksN_j]
    exact ⟨hidle, hlast, hpasses, hws⟩
  | stored _ hopen => exact ⟨fun _ => hidle (.inr hopen), hlast, hpasses, fun _ => rfl⟩
  | bound _ _ _ hoff => exact ⟨fun _ => hidle (.inl hoff), hlast, hpasses, hws⟩
  | begun hrun _ hstored =>
    exact ⟨booted_absurd ⟨(running_iff.mp hrun).2, hstored⟩, fun _ => rfl, nofun, hws⟩
  | sent _ hctl hr =>
    have hb := hout (by rw [hctl]; decide)
    exact ⟨booted_absurd hb, fun h => absurd h hr.ne, nofun, hws⟩
  | passEnded _ hctl =>
    have hb := hout (by rw [hctl]; decide)
    exact ⟨booted_absurd hb, fun _ => rfl, nofun, hws⟩
  | flushed _ hctl heq =>
    have hb := hout (by rw [hctl]; decide)
    exact ⟨booted_absurd hb, hlast, fun _ => heq, hws⟩
  | cooling _ hctl =>
    have hb := hout (by rw [hctl]; decide)
    exact ⟨booted_absurd hb, hlast, fun _ => hpasses (.inl hctl), hws⟩
  | cooled => exact ⟨fun _ => rfl, fun _ => rfl, nofun, hws⟩
  | held | encoded | failed | pushed | called => exact ⟨hidle, hlast, hpasses, hws⟩

/-! ### All of it -/

theorem Effect.inv {i : Instr} {s t : State} (h : Effect s i t) (hs : s.Inv) : t.Inv := by
  obtain ⟨hvalid, ⟨hfifo, hshift, hquiet, hdriven, hfault, hcount, hhist, hstream⟩, hboot⟩ := hs
  exact ⟨by rw [h.cfg]; exact hvalid,
    ⟨h.fifoBounded hfifo, h.shiftRegisterWf hshift, h.quietBeforeStart hquiet, h.drivenOnceStarted hdriven,
      h.faultIsTerminal hfault hboot, h.countersInRange hcount hboot, h.historyLengths hhist, h.streamLaw hstream⟩,
    h.bootOrder hboot⟩

/-- Settles O48. -/
theorem execKeepsInvariant : Obligations.ExecKeepsInvariant := fun _ _ _ hs h => (effect_of_exec h).inv hs

theorem inv_withTrace {s : State} (hs : s.Inv) (t : List Line) : (withTrace t s).Inv := hs

theorem inv_spendChoice {s : State} (hs : s.Inv) : (spendChoice s).Inv := hs

/-- Every step is an operation, run where the model's own fields have moved on, or it spends a choice only. -/
theorem step_next {s t : State} (h : step s = .next t) :
    (∃ i u, (u = s ∨ (∃ rest, u = withTrace rest s) ∨ u = spendChoice s) ∧ exec i u = .next t) ∨ t = spendChoice s := by
  unfold step at h
  split at h
  next line rest _ =>
    split at h
    next => cases h
    next i _ =>
      split at h
      · exact .inl ⟨_, s, .inl rfl, h⟩
      · exact .inl ⟨i, _, .inr (.inl ⟨rest, rfl⟩), h⟩
  next =>
    split at h
    next => cases h
    next =>
      split at h
      next i _ => exact .inl ⟨i, _, .inr (.inr rfl), h⟩
      next => exact .inr (next_eq.mp h)

/-- Settles O49: no clause reads the trace or the schedule's counter, and every operation keeps the invariant. -/
theorem stepKeepsInvariant : Obligations.StepKeepsInvariant := by
  intro s t hs h
  obtain ⟨i, u, hu, hexec⟩ | rfl := step_next h
  · refine execKeepsInvariant i u t ?_ hexec
    obtain rfl | ⟨rest, rfl⟩ | rfl := hu
    · exact hs
    · exact inv_withTrace hs rest
    · exact inv_spendChoice hs
  · exact inv_spendChoice hs

/-! ### Where it begins -/

theorem powerOn_inv {c : Config} (hc : c.Valid) (bits : List Bool) : (State.powerOn c bits).Inv :=
  ⟨hc, ⟨Nat.zero_le _, ⟨⟨Nat.le_add_left 1 31, le_rfl⟩, Nat.one_pos⟩, fun _ => ⟨rfl, rfl, rfl, rfl, rfl⟩, nofun, fun h => absurd rfl h,
    ⟨Nat.zero_le _, Nat.zero_le _, fun _ => rfl, fun _ => rfl⟩, ⟨rfl, le_rfl⟩, rfl⟩,
    ⟨fun _ => rfl, fun _ => rfl, nofun, nofun⟩⟩

/-- However large `n` is, reduced in this way it is a duration of at most `m` ticks at the rate `f`. -/
theorem ticks_mod_le (n d m : Nat) {f : Nat} (hf : 0 < f) :
    Duration.ticks ⟨n % (m * (d + 1) / f + 1), d + 1⟩ f ≤ m := by
  have hle : n % (m * (d + 1) / f + 1) ≤ m * (d + 1) / f := Nat.le_of_lt_succ (Nat.mod_lt _ (Nat.succ_pos _))
  rw [Nat.le_div_iff_mul_le hf] at hle
  simp only [Duration.ticks, ceilDiv]
  have hpos : 0 < d + 1 := d.succ_pos
  rw [← Nat.lt_succ_iff, Nat.div_lt_iff_lt_mul hpos, Nat.succ_mul]
  omega

theorem hwFreqHz_toNat : Config.hwFreqHz.toNat = 2500 := by decide

theorem hwFreqHz_pos : 0 < Config.hwFreqHz.toNat := by rw [hwFreqHz_toNat]; norm_num

/-- The open delay is bounded so that its ticks fit CR4. -/
theorem hwFeedbackTicks_lt : Config.hwFeedbackDelay.ticks Config.hwFreqHz.toNat < 2 ^ 32 := by
  have hle := ticks_mod_le Config.openFeedbackNum Config.openFeedbackDenPred (2 ^ 32 - 1) hwFreqHz_pos
  exact Nat.lt_of_le_of_lt hle (by norm_num)

theorem hwCooldownTicks : Config.hw.cooldownTicks = 7500 := by
  norm_num [Config.hw, Config.hwCooldown, Duration.ticks, ceilDiv, hwFreqHz_toNat]

theorem hw_fSys : Config.hw.fSys = Config.hwFreqHz.toNat * (Config.openDivisorPred + 1) := rfl

/-- The system clock is the open divisor times the rate. -/
theorem hw_realizable : Config.hw.realizable Config.hwFreqHz.toNat = true := by
  rw [realizable_iff, hw_fSys, Nat.mul_div_cancel_left _ hwFreqHz_pos]
  exact ⟨hwFreqHz_pos, Nat.mul_mod_right .., Nat.le_add_left .., Nat.le_add_right ..⟩

theorem hw_valid : Config.hw.Valid := by
  have hcooldown : Config.hw.cooldownTicks < 2 ^ 32 := hwCooldownTicks.trans_lt (by norm_num)
  have hrepeat : Config.hw.repeatCount ≤ 65535 := by norm_num [Config.hw]
  have hfeedback : Config.hw.feedbackTicks = Config.hw.feedbackDelay.ticks Config.hw.freqHz.toNat := by
    simp only [Config.hw]
  have hconsistent : Config.hw.Consistent := ⟨rfl, rfl, rfl, rfl, ⟨le_rfl, rfl⟩, Nat.le_add_left .., hfeedback⟩
  exact ⟨⟨Nat.le_add_left 1 9, hrepeat⟩, hcooldown, hwFeedbackTicks_lt, Nat.le_add_left .., hw_realizable, hconsistent⟩

/-- Settles O50. -/
theorem powerOnHasInvariant : Obligations.PowerOnHasInvariant :=
  ⟨fun _ bits hc => powerOn_inv hc bits, hw_valid, powerOn_inv hw_valid _⟩

/-- The invariant along every history from power-on, whoever issues the operations. -/
theorem inv_of_reachableFrom {allowed : Instr → Bool} {c : Config} {bits : List Bool} {s : State} (hc : c.Valid)
    (h : ReachableFrom allowed (State.powerOn c bits) s) : s.Inv :=
  h.keeps (powerOn_inv hc bits) fun _ _ _ _ heffect hu => heffect.inv hu

/-- Settles O51: the invariant's clauses are those of R52. -/
theorem reachableStatesSatisfyR52 : Obligations.ReachableStatesSatisfyR52 := by
  intro c bits s hc h
  obtain ⟨-, ⟨hfifo, ⟨⟨hlo, hhi⟩, hosr⟩, hquiet, hdriven, hfault, hcount, hhist, hstream⟩, -⟩ := inv_of_reachableFrom hc h
  exact ⟨⟨Nat.zero_le _, hfifo⟩, ⟨hlo, hhi, hosr⟩, hquiet, hdriven, hfault, hcount, hhist, hstream⟩

end Sys2Proof.Machine
end

section
/-! PROOFS. The values at reset, and the views of the state: conditions, ports, real time (10_state.md R41, R51, 20_memory.md
R88, 00_scope.md R13). -/

namespace Sys2Proof.Machine

/-- Settles O57: every open parameter is left as the constant that it is. -/
theorem resetValues : Obligations.ResetValues := by
  have hlen : Config.signal.length = 333 := by simp [Config.signal, Config.hwSignalLength]
  exact ⟨rfl, rfl, rfl, rfl, rfl, rfl, rfl, rfl, rfl, rfl, rfl, rfl, hlen, rfl, rfl, rfl, rfl, rfl, rfl, rfl, rfl, rfl, rfl,
    rfl, rfl, rfl, rfl, rfl, hwCooldownTicks, congrArg Config.hwFeedbackDelay.ticks hwFreqHz_toNat, rfl, rfl⟩

/-- Settles O58: `≥` in the definitions is `=` where the invariant bounds the length and the count. -/
theorem sequencerConditions : Obligations.SequencerConditions := by
  refine ⟨?_, rfl, rfl, rfl, rfl⟩
  rintro s ⟨-, ⟨hfifo, ⟨⟨-, hcnt⟩, -⟩, -⟩, -⟩
  refine ⟨fifoFull_iff.trans ⟨fun h => Nat.le_antisymm hfifo h, Eq.ge⟩, ?_,
    osrEmpty_iff.trans ⟨fun h => Nat.le_antisymm hcnt h, Eq.ge⟩, ?_⟩
  · rw [State.fifoEmpty, List.isEmpty_iff_length_eq_zero]
  · rw [State.starved, Bool.and_eq_true, Bool.and_eq_true, and_assoc]

theorem txReady_iff {s : State} : s.txReady = true ↔ (s.fault = none ∧ s.started = true) ∧ s.fifoFull = false := by
  rw [State.txReady, Bool.and_eq_true, running_iff, Bool.not_eq_true']

/-- A word is accepted exactly where `tx_ready` says so: a hold leaves `ENQS` shorter than that. -/
theorem txReady_iff_accepted {s : State} {w : Word} :
    s.txReady = true ↔ ∃ t, exec (.enq w) s = .next t ∧ t.enqs = s.enqs ++ [w] := by
  rw [txReady_iff]
  constructor
  · rintro ⟨⟨hf, hs⟩, hroom⟩
    exact ⟨_, execEnq_next.mpr ⟨hf, hs, .inr ⟨hroom, rfl⟩⟩, rfl⟩
  · rintro ⟨t, hexec, henqs⟩
    obtain ⟨hf, hs, ⟨-, rfl⟩ | ⟨hroom, -⟩⟩ := execEnq_next.mp hexec
    · exact absurd henqs.symm (by simp)
    · exact ⟨⟨hf, hs⟩, hroom⟩

theorem cfgErr_of_fault {s : State} {c : Causes} (h : s.fault = some c) :
    s.cfgErr.getLsbD 0 = c.pinInvalid ∧ s.cfgErr.getLsbD 1 = c.freqUnrealizable := by
  rw [State.cfgErr, h]
  have hcauses : ∀ p q : Bool, (BitVec.ofNat 2 (p.toNat + 2 * q.toNat)).getLsbD 0 = p ∧
      (BitVec.ofNat 2 (p.toNat + 2 * q.toNat)).getLsbD 1 = q := by decide
  exact hcauses c.pinInvalid c.freqUnrealizable

theorem pinLevel_eq (s : State) (p : Nat) : s.pinLevel p = if s.started = true ∧ p = s.cfgPin then s.line else .z := by
  simp [State.pinLevel]

/-- Settles O59. -/
theorem portsViewTheState : Obligations.PortsViewTheState := by
  intro s w
  refine ⟨txReady_iff_accepted, fun hf => by rw [State.cfgErr, hf], fun c hc => cfgErr_of_fault hc, ?_, ?_, ?_, ?_, ?_⟩
  · simp [State.ookOe]
  · rw [State.ookOut]
    cases s.line <;> simp
  · rw [State.ookOut]
    cases s.line <;> simp
  · intro hs
    exact ⟨by rw [pinLevel_eq, if_pos ⟨hs, rfl⟩], fun p hp => by rw [pinLevel_eq, if_neg fun h => hp h.2]⟩
  · intro hs p
    rw [pinLevel_eq, if_neg fun h => by simp [hs] at h]

/-- Settles O60: the phase is a proper fraction of one period. -/
theorem tickPeriodIsExact : Obligations.TickPeriodIsExact := by
  have hperiod : symbolPeriod 2500 = 400 / 1000000 := by norm_num [symbolPeriod]
  have htSym : durationSeconds Config.hw.tSym = symbolPeriod 2500 := by
    simp [durationSeconds, symbolPeriod, Config.hw, Config.hwFreqHz]
  have hpos : (0 : ℚ) < symbolPeriod 2500 := by norm_num [hperiod]
  refine ⟨fun t0 f n => ?_, ?_, hperiod, ?_, ?_⟩
  · simp only [tickTime, symbolPeriod, Nat.cast_succ]
    ring
  · rintro c ⟨-, -, -, -, -, -, -, -, htSym, -⟩
    rw [htSym, durationSeconds, symbolPeriod, Nat.cast_one]
  · rw [hwTickPhase, htSym]
    positivity
  · have hlt : ((Config.openPhaseNum % (Config.openPhaseDenPred + 1) : Nat) : ℚ) <
        ((Config.openPhaseDenPred + 1 : Nat) : ℚ) := Nat.cast_lt.mpr (Nat.mod_lt _ (Nat.succ_pos _))
    rw [hwTickPhase, htSym]
    exact mul_lt_of_lt_one_right hpos ((div_lt_one (Nat.cast_pos.mpr (Nat.succ_pos _))).mpr hlt)

end Sys2Proof.Machine
end

section
/-! PROOFS. The order law of the controller (43_controller.md R208, R209): each transition moves the burst position on by
what it has had accepted, so the accepted words are read off the position. -/

namespace Sys2Proof.Machine

theorem Effect.wsStored {i : Instr} {s t : State} (h : Effect s i t) (hs : s.wsStored = true) : t.wsStored = true := by
  cases h with
  | @ticked _ n => exact (ticksN_wsStored n s).trans hs
  | stored => rfl
  | held | encoded | failed | bound | pushed | begun | sent | passEnded | flushed | cooling | cooled | called => exact hs

/-! ### The words of a burst by their position -/

theorem passes_length (n : Nat) (ws : List Word) : (List.replicate n ws).flatten.length = n * ws.length := by
  simp

/-- Word `j` of pass `r`. -/
theorem passes_getElem? {n r j : Nat} {ws : List Word} (hr : r < n) (hj : j < ws.length) :
    (List.replicate n ws).flatten[r * ws.length + j]? = ws[j]? := by
  obtain ⟨m, rfl⟩ : ∃ m, n = r + (m + 1) := ⟨n - r - 1, by omega⟩
  rw [List.replicate_add, List.flatten_append, List.getElem?_append_right (by simp), passes_length, Nat.add_sub_cancel_left,
    List.replicate_succ, List.flatten_cons, List.getElem?_append_left hj]

theorem burst_length (s : State) : s.burst.length = s.cfg.repeatCount * s.streamLen + s.cfg.flushWords := by
  rw [State.burst, List.length_append, passes_length, List.length_replicate, State.streamLen]

theorem burst_getElem?_pass {s : State} (hr : s.r < s.cfg.repeatCount) (hj : s.j < s.streamLen) :
    s.burst[s.r * s.streamLen + s.j]? = some (s.memRead s.j) := by
  have hlt : s.r * s.ws.length + s.j < (List.replicate s.cfg.repeatCount s.ws).flatten.length := by
    have hmul := Nat.mul_le_mul_right s.ws.length hr
    rw [Nat.succ_mul] at hmul
    rw [passes_length]
    exact Nat.lt_of_lt_of_le (Nat.add_lt_add_left hj _) hmul
  rw [State.burst, State.streamLen, List.getElem?_append_left hlt, passes_getElem? hr hj, State.memRead,
    List.getD_eq_getElem _ _ hj, List.getElem?_eq_getElem hj]

theorem burst_getElem?_flush {s : State} (h : s.cfg.flushWords = 1) :
    s.burst[s.cfg.repeatCount * s.streamLen]? = some 0#32 := by
  rw [State.burst, h, State.streamLen, ← passes_length, List.getElem?_append_right le_rfl, Nat.sub_self]
  rfl

theorem burst_take_all {s : State} (h : s.ctl = .flushing ∨ s.ctl = .cooldown) :
    s.burst.take s.burstPosition = s.burst := by
  refine List.take_of_length_le (Nat.le_of_eq ?_)
  obtain h | h := h <;> rw [burst_length, State.burstPosition, h]

/-! ### How far an operation moves the position -/

/-- `t` is further in the same burst than `s`, by the words that have been accepted in between. -/
def Advances (s t : State) : Prop :=
  t.burst = s.burst ∧ ∃ ws, t.enqs = s.enqs ++ ws ∧ s.burst.take t.burstPosition = s.burst.take s.burstPosition ++ ws

theorem Advances.of_same {s t : State} (hburst : t.burst = s.burst) (henqs : t.enqs = s.enqs)
    (hpos : t.burstPosition = s.burstPosition) : Advances s t :=
  ⟨hburst, [], by rw [henqs, List.append_nil], by rw [hpos, List.append_nil]⟩

/-- One accepted word that is the burst's next. -/
theorem Advances.of_word {s t : State} {w : Word} (hburst : t.burst = s.burst) (henqs : t.enqs = s.enqs ++ [w])
    (hpos : t.burstPosition = s.burstPosition + 1) (hw : s.burst[s.burstPosition]? = some w) : Advances s t :=
  ⟨hburst, [w], henqs, by rw [hpos, List.take_add_one, hw]; rfl⟩

theorem burstPosition_transmitting {s : State} (h : s.ctl = .transmitting) :
    s.burstPosition = s.r * s.streamLen + s.j := by rw [State.burstPosition, h]

theorem burstPosition_idle {s : State} (h : s.ctl = .idle) : s.burstPosition = 0 := by rw [State.burstPosition, h]

theorem ticksN_burst (n : Nat) (s : State) : (ticksN n s).burst = s.burst := by
  rw [State.burst, State.burst, ticksN_cfg, ticksN_ws]

theorem ticksN_burstPosition (n : Nat) (s : State) : (ticksN n s).burstPosition = s.burstPosition := by
  simp only [State.burstPosition, State.streamLen, ticksN_cfg, ticksN_ws, ticksN_ctl, ticksN_r, ticksN_j]

/-- With `WS` stored and the controller as the only producer, an operation stays in the burst or ends it. -/
theorem Effect.advances {i : Instr} {s t : State} (h : Effect s i t) (hi : controllerOnly i = true) (hs : s.Inv)
    (hstored : s.wsStored = true) : Advances s t ∨ (s.ctl = .cooldown ∧ t = setCtl .idle 0 0 s) := by
  obtain ⟨⟨-, -, -, -, -, -, hflushWords, -⟩, -, -, hlast, -⟩ := hs
  cases h with
  | @ticked _ n => exact .inl (.of_same (ticksN_burst n s) (ticksN_enqs n s) (ticksN_burstPosition n s))
  | stored _ hopen => exact absurd (hstored.symm.trans hopen) (by decide)
  | pushed _ _ _ _ hother => exact absurd (hi.symm.trans hother) (by decide)
  | begun _ hctl => exact .inl (.of_same rfl rfl (by rw [burstPosition_idle hctl]; exact Nat.zero_mul _))
  | sent _ hctl hr hj =>
    have hpos := burstPosition_transmitting hctl
    exact .inl (.of_word rfl rfl (by rw [hpos]; rfl) (by rw [hpos]; exact burst_getElem?_pass hr hj))
  | passEnded _ hctl _ hj =>
    refine .inl (.of_same rfl rfl ?_)
    rw [burstPosition_transmitting hctl, hj]
    exact Nat.succ_mul ..
  | flushed _ hctl hr =>
    have hpos : s.burstPosition = s.cfg.repeatCount * s.streamLen := by
      rw [burstPosition_transmitting hctl, hlast hr, hr, Nat.add_zero]
    refine .inl (.of_word rfl rfl ?_ (by rw [hpos]; exact burst_getElem?_flush hflushWords))
    rw [hpos, ← hflushWords]
    rfl
  | cooling _ hctl => exact .inl (.of_same rfl rfl (by simp only [State.burstPosition, hctl]; rfl))
  | cooled _ hctl => exact .inr ⟨hctl, rfl⟩
  | held | encoded | failed | bound | called => exact .inl (.of_same rfl rfl rfl)

/-- Before `WS` is stored nothing is accepted and the controller does not move. -/
theorem Effect.before_stream {i : Instr} {s t : State} (h : Effect s i t) (hi : controllerOnly i = true)
    (hopen : s.wsStored = false) (hctl : s.ctl = .idle) : t.enqs = s.enqs ∧ t.ctl = .idle := by
  cases h with
  | @ticked _ n => exact ⟨ticksN_enqs n s, (ticksN_ctl n s).trans hctl⟩
  | pushed _ _ _ _ hother => exact absurd (hi.symm.trans hother) (by decide)
  | begun _ _ hstored => exact absurd (hstored.symm.trans hopen) (by decide)
  | sent _ hctl' | passEnded _ hctl' | flushed _ hctl' | cooling _ hctl' | cooled _ hctl' =>
    exact absurd (hctl.symm.trans hctl') (by decide)
  | held | encoded | stored | failed | bound | called => exact ⟨rfl, hctl⟩

theorem burstOrder_of_idle {s : State} (henqs : s.enqs = []) (hctl : s.ctl = .idle) : s.BurstOrder :=
  ⟨fun _ => henqs, 0, by rw [henqs, burstPosition_idle hctl]; rfl⟩

theorem Effect.burstOrder {i : Instr} {s t : State} (h : Effect s i t) (hi : controllerOnly i = true) (hs : s.Inv)
    (horder : s.BurstOrder) : t.BurstOrder := by
  obtain ⟨hquiet, k, hk⟩ := horder
  cases hstored : s.wsStored with
  | false =>
    obtain ⟨-, -, hidle, -⟩ := hs
    obtain ⟨henqs, hctl⟩ := h.before_stream hi hstored (hidle (.inr hstored))
    exact burstOrder_of_idle (henqs.trans (hquiet hstored)) hctl
  | true =>
    refine ⟨fun h0 => absurd ((h.wsStored hstored).symm.trans h0) (by decide), ?_⟩
    obtain ⟨hburst, ws, henqs, hpos⟩ | ⟨hctl, rfl⟩ := h.advances hi hs hstored
    · exact ⟨k, by rw [henqs, hk, hburst, hpos, List.append_assoc]⟩
    · refine ⟨k + 1, ?_⟩
      rw [burstPosition_idle (s := setCtl .idle 0 0 s) rfl, List.take_zero, List.append_nil, setCtl_enqs, hk,
        burst_take_all (.inr hctl), List.replicate_succ', List.flatten_append, List.flatten_singleton]
      rfl

theorem emit_prefix_of_streamLaw {s : State} (h : s.StreamLaw) : s.emit <+: unpackWords s.enqs :=
  ⟨s.pending, streamLaw_iff.mp h⟩

theorem unpackWords_prefix {a b : List Word} (h : a <+: b) : unpackWords a <+: unpackWords b := by
  obtain ⟨c, rfl⟩ := h
  rw [unpackWords_append]
  exact List.prefix_append ..

/-- Settles O43: the order law is kept by each effect, holds with nothing accepted, and gives the words in every history;
what is emitted are the first bits of them by the emitted-stream law. -/
theorem acceptedWordsAreBursts : Obligations.AcceptedWordsAreBursts := by
  refine ⟨fun i s t hi hs horder h => (effect_of_exec h).burstOrder hi hs horder,
    fun c bits => burstOrder_of_idle rfl rfl, fun c bits s hc h => ?_⟩
  obtain ⟨⟨-, ⟨-, -, -, -, -, -, -, hstream⟩, -⟩, -, k, hk⟩ := h.keeps (P := fun u => u.Inv ∧ u.BurstOrder)
    ⟨powerOn_inv hc bits, burstOrder_of_idle rfl rfl⟩
    fun i u v hi heffect hu => ⟨heffect.inv hu.1, heffect.burstOrder hi hu.1 hu.2⟩
  refine ⟨k, hk, (emit_prefix_of_streamLaw hstream).trans (unpackWords_prefix ?_)⟩
  rw [hk, List.replicate_succ', List.flatten_append, List.flatten_singleton]
  exact (List.prefix_append_right_inj _).mpr (List.take_prefix ..)

/-! ### One burst -/

/-- `u` is inside the burst that began in `s`: what has been accepted and called since is what the position says. -/
structure InBurst (s u : State) : Prop where
  inv : u.Inv
  stored : u.wsStored = true
  ctl : u.ctl = .transmitting ∨ u.ctl = .flushing
  cfg : u.cfg = s.cfg
  burst : u.burst = s.burst
  enqs : u.enqs = s.enqs ++ s.burst.take u.burstPosition
  fb : u.fb = s.fb ++ List.replicate u.r .toggle

/-- Inside a burst only `CTL.ENDPASS` changes `r` and the record of calls, and only `CTL.TOCOOL` leads out. -/
theorem Effect.passes_and_calls {i : Instr} {s t : State} (h : Effect s i t)
    (hi : i ≠ .ctlToCool ∧ i ≠ .fbToggle ∧ i ≠ .fbIdle) (hctl : s.ctl = .transmitting ∨ s.ctl = .flushing) :
    (t.ctl = .transmitting ∨ t.ctl = .flushing) ∧
      ((t.r = s.r ∧ t.fb = s.fb) ∨ (t.r = s.r + 1 ∧ t.fb = s.fb ++ [.toggle])) := by
  obtain ⟨hcool, htoggle, hidle⟩ := hi
  cases h with
  | @ticked _ n => exact ⟨by rwa [ticksN_ctl], .inl ⟨ticksN_r n s, ticksN_fb n s⟩⟩
  | begun _ hctl' => simp [hctl'] at hctl
  | cooled _ hctl' => simp [hctl'] at hctl
  | cooling => exact absurd rfl hcool
  | called _ _ hi => exact (hi.elim htoggle hidle).elim
  | passEnded => exact ⟨.inl rfl, .inr ⟨rfl, rfl⟩⟩
  | sent => exact ⟨.inl rfl, .inl ⟨rfl, rfl⟩⟩
  | flushed => exact ⟨.inr rfl, .inl ⟨rfl, rfl⟩⟩
  | held | encoded | stored | failed | bound | pushed => exact ⟨hctl, .inl ⟨rfl, rfl⟩⟩

theorem Effect.inBurst {i : Instr} {s u v : State} (h : Effect u i v) (hi : controllerOnly i = true)
    (hi' : i ≠ .ctlToCool ∧ i ≠ .fbToggle ∧ i ≠ .fbIdle) (hu : InBurst s u) : InBurst s v := by
  obtain ⟨hinv, hstored, hctl, hcfg, hburst, henqs, hfb⟩ := hu
  obtain ⟨hctl', hcalls⟩ := h.passes_and_calls hi' hctl
  obtain ⟨hburst', ws, henqs', hpos⟩ | ⟨hctl'', -⟩ := h.advances hi hinv hstored
  · refine ⟨h.inv hinv, h.wsStored hstored, hctl', h.cfg.trans hcfg, hburst'.trans hburst, ?_, ?_⟩
    · rw [hburst] at hpos
      rw [henqs', henqs, hpos, List.append_assoc]
    · obtain ⟨hr, hsame⟩ | ⟨hr, hcall⟩ := hcalls
      · rw [hsame, hr, hfb]
      · rw [hcall, hr, hfb, List.replicate_succ', List.append_assoc]
  · simp [hctl''] at hctl

theorem inBurst_of_begin {s t : State} (hs : s.Inv) (h : exec .ctlBegin s = .next t) : InBurst s t := by
  have hinv := execKeepsInvariant _ _ _ hs h
  obtain ⟨-, -, -, hstored, -, rfl⟩ := execCtlBegin_next.mp h
  refine ⟨hinv, hstored, .inl rfl, rfl, rfl, ?_, (List.append_nil _).symm⟩
  rw [burstPosition_transmitting rfl]
  simp

/-- Settles O44: where `CTL.TOCOOL` is taken the position is the burst's end and all passes are complete. -/
theorem oneBurstIsRepeatTimesLengthPlusOne : Obligations.OneBurstIsRepeatTimesLengthPlusOne := by
  intro s t u v hs hbegin hreach hcool
  have hu : InBurst s u := hreach.keeps (inBurst_of_begin hs hbegin) fun i a b hi h ha => by
    obtain ⟨hi, hi'⟩ := Bool.and_eq_true_iff.mp hi
    exact h.inBurst hi (of_decide_eq_true hi') ha
  obtain ⟨⟨-, -, -, -, hpasses, -⟩, -, -, hcfg, hburst, henqs, hfb⟩ := hu
  obtain ⟨-, -, hctl, rfl⟩ := execCtlToCool_next.mp hcool
  obtain ⟨⟨-, -, -, -, -, -, hflushWords, -⟩, -⟩ := hs
  rw [← hburst, burst_take_all (.inl hctl), hburst] at henqs
  rw [hpasses (.inl hctl), hcfg] at hfb
  refine ⟨henqs, ?_, congrArg (· ++ [FbCall.idle]) hfb⟩
  refine (congrArg List.length henqs).trans ?_
  rw [List.length_append, burst_length, hflushWords, State.streamLen]

/-! ### The pseudo-operation `BURST` -/

/-- These words are accepted and these calls made. -/
def accept (ws : List Word) (calls : List FbCall) (s : State) : State :=
  { s with fifo := s.fifo ++ ws, enqs := s.enqs ++ ws, fb := s.fb ++ calls }

theorem accept_nil (s : State) : accept [] [] s = s := by simp [accept]

theorem accept_accept (ws ws' : List Word) (calls calls' : List FbCall) (s : State) :
    accept ws' calls' (accept ws calls s) = accept (ws ++ ws') (calls ++ calls') s := by
  simp [accept]

theorem runOps_append : ∀ (a b : List Instr) (s t : State), runOps a s = .next t → runOps (a ++ b) s = runOps b t
  | [], b, s, t, h => by cases h; rfl
  | i :: a, b, s, t, h => by
    rw [List.cons_append]
    simp only [runOps] at h ⊢
    cases hs : exec i s with
    | next u => rw [hs] at h; exact runOps_append a b u t h
    | fault f => rw [hs] at h; cases h
    | refused r => rw [hs] at h; cases h

theorem runOps_cons_next {i : Instr} {rest : List Instr} {s t : State} (h : exec i s = .next t) :
    runOps (i :: rest) s = runOps rest t := by
  simp only [runOps, h]

theorem runOps_passOps : ∀ (ws : List Word) (s : State), s.fault = none → s.started = true →
    s.fifo.length + ws.length ≤ s.cfg.fifoDepth → runOps (passOps ws) s = .next (accept ws [] s)
  | [], s, _, _, _ => by rw [accept_nil]; rfl
  | w :: ws, s, hf, hs, hroom => by
    rw [List.length_cons] at hroom
    have hpush : exec (.enq w) s = .next (accept [w] [] s) := by
      refine (execEnq_of_room hf hs (by omega) w).trans ?_
      simp [accept, pushWord]
    have hrest := runOps_passOps ws (accept [w] [] s) hf hs (by simp only [accept, List.length_append]; simp; omega)
    rw [accept_accept] at hrest
    exact (runOps_cons_next hpush).trans hrest

/-- One pass with its call. -/
theorem runOps_pass {ws : List Word} {s : State} (hf : s.fault = none) (hs : s.started = true)
    (hroom : s.fifo.length + ws.length ≤ s.cfg.fifoDepth) :
    runOps (passOps ws ++ [.fbToggle]) s = .next (accept ws [.toggle] s) := by
  have hcall : exec .fbToggle (accept ws [] s) = .next (accept ws [.toggle] s) :=
    execFbToggle_next.mpr ⟨hf, hs, by simp [accept, callFb]⟩
  exact (runOps_append _ _ _ _ (runOps_passOps ws s hf hs hroom)).trans (runOps_cons_next hcall)

theorem runOps_passes (ws : List Word) : ∀ (n : Nat) (s : State), s.fault = none → s.started = true →
    s.fifo.length + n * ws.length ≤ s.cfg.fifoDepth →
    runOps (List.replicate n (passOps ws ++ [.fbToggle])).flatten s =
      .next (accept (List.replicate n ws).flatten (List.replicate n .toggle) s)
  | 0, s, _, _, _ => by simp only [List.replicate_zero, List.flatten_nil, accept_nil, runOps]
  | n + 1, s, hf, hs, hroom => by
    rw [Nat.succ_mul] at hroom
    have hfirst := runOps_pass (ws := ws) hf hs (by omega)
    have hrest := runOps_passes ws n (accept ws [.toggle] s) hf hs
      (by simp only [accept, List.length_append]; omega)
    rw [accept_accept] at hrest
    rw [List.replicate_succ, List.flatten_cons, runOps_append _ _ _ _ hfirst, hrest]
    rfl

/-- Settles O45: the passes one after the other, then the flush word and its call. -/
theorem burstPseudoOperation : Obligations.BurstPseudoOperation := by
  intro s n ws hf hs hroom
  have hpasses := runOps_passes ws n s hf hs (by omega)
  have hflush : exec .flush (accept (List.replicate n ws).flatten (List.replicate n .toggle) s) =
      .next (accept (burstWords n ws) (List.replicate n .toggle) s) := by
    refine execFlush_next.mpr ⟨hf, hs, .inr ⟨fifoFull_eq_false_iff.mpr ?_, ?_⟩⟩
    · simp only [accept, List.length_append, passes_length]
      omega
    · simp [accept, pushWord, burstWords]
  have hidle : exec .fbIdle (accept (burstWords n ws) (List.replicate n .toggle) s) =
      .next (accept (burstWords n ws) (List.replicate n .toggle ++ [.idle]) s) :=
    execFbIdle_next.mpr ⟨hf, hs, by simp [accept, callFb]⟩
  rw [burstOps, runOps_append _ _ _ _ hpasses, runOps_cons_next hflush, runOps_cons_next hidle, List.append_assoc]
  rfl

/-! ### The two waits -/

/-- In `Cooldown`, `CTL.cool` has grown by the ticks since it was last 0: only `CTL.TOCOOL` writes it. -/
theorem Effect.cool {i : Instr} {s t : State} (h : Effect s i t) (hi : i ≠ .ctlToCool) (ht : t.ctl = .cooldown) :
    s.ctl = .cooldown ∧ t.cool + s.ticks = s.cool + t.ticks := by
  cases h with
  | @ticked _ n =>
    rw [ticksN_ctl] at ht
    rw [ticksN_cool, if_pos ht, ticksN_ticks]
    exact ⟨ht, by omega⟩
  | cooling => exact absurd rfl hi
  | begun | sent | passEnded | flushed | cooled => cases ht
  | held | encoded | stored | failed | bound | pushed | called => exact ⟨ht, rfl⟩

/-- Settles O46. -/
theorem cooldownIsLowerBound : Obligations.CooldownIsLowerBound := by
  intro s t u v htocool hreach hctl hdone hidle
  obtain ⟨hcfg, hcool⟩ := hreach.keeps
    (P := fun a => a.cfg = s.cfg ∧ (a.ctl = .cooldown → t.ticks + a.cool ≤ a.ticks))
    (by obtain ⟨-, -, -, rfl⟩ := execCtlToCool_next.mp htocool; exact ⟨rfl, fun _ => le_rfl⟩)
    fun i a b hi h ⟨hcfg, hcool⟩ => ⟨h.cfg.trans hcfg, fun hb => by
      obtain ⟨ha, hgrow⟩ := h.cool (of_decide_eq_true hi) hb
      have := hcool ha
      omega⟩
  obtain ⟨-, -, -, ⟨-, rfl⟩ | ⟨hover, -⟩⟩ := execCtlCoolDone_next.mp hdone
  · rw [hctl] at hidle
    cases hidle
  · rw [hcfg] at hover
    have := hcool hctl
    omega

/-- But for `CTL.BEGIN`, which skips the wait, `CTL.fbwait` never gets ahead of the ticks. -/
theorem Effect.fbwait {i : Instr} {s t : State} (h : Effect s i t) (hi : i ≠ .ctlBegin) {start : Nat}
    (hs : start + s.fbwait ≤ s.ticks) : start + t.fbwait ≤ t.ticks := by
  cases h with
  | @ticked _ n =>
    rw [ticksN_ticks, ticksN_fbwait]
    split <;> omega
  | begun => exact absurd rfl hi
  | passEnded => exact Nat.le_of_add_right_le hs
  | held | encoded | stored | failed | bound | pushed | sent | flushed | cooling | cooled | called => exact hs

/-- Settles O47. -/
theorem feedbackDelayIsLowerBound : Obligations.FeedbackDelayIsLowerBound := by
  intro s t u v hendpass hreach hsend hnew
  obtain ⟨hcfg, hfbwait⟩ := hreach.keeps
    (P := fun a => a.cfg = s.cfg ∧ t.ticks + a.fbwait ≤ a.ticks)
    (by obtain ⟨-, -, -, -, -, rfl⟩ := execCtlEndPass_next.mp hendpass; exact ⟨rfl, le_rfl⟩)
    fun i a b hi h ⟨hcfg, hfbwait⟩ => ⟨h.cfg.trans hcfg, h.fbwait (of_decide_eq_true hi) hfbwait⟩
  obtain ⟨-, -, -, -, -, ⟨-, rfl⟩ | ⟨⟨hover, -⟩, -⟩⟩ := execCtlSend_next.mp hsend
  · exact absurd rfl hnew
  · rw [hcfg] at hover
    omega

/-! ### The controller's table -/

theorem running_of_inv {s : State} (hs : s.Inv) (hstarted : s.started = true) : s.running = true := by
  obtain ⟨-, ⟨-, -, -, hdriven, -⟩, -⟩ := hs
  exact running_iff.mpr ⟨(hdriven hstarted).2, hstarted⟩

theorem running_of_ctl {s : State} (hs : s.Inv) (h : s.ctl ≠ .idle) : s.running = true := by
  have hboot : s.BootOrder := hs.2.2
  exact running_of_inv hs (booted_of_ctl hboot h).1

/-- While transmitting, the counters select one of three rows. -/
theorem nextCtl_transmitting {s : State} (hs : s.Inv) (hctl : s.ctl = .transmitting) :
    (s.r < s.cfg.repeatCount ∧ s.j < s.streamLen ∧ nextCtl s = some .ctlSend) ∨
      (s.r < s.cfg.repeatCount ∧ s.j = s.streamLen ∧ nextCtl s = some .ctlEndPass) ∨
      (s.r = s.cfg.repeatCount ∧ nextCtl s = some .ctlToFlush) := by
  obtain ⟨-, ⟨-, -, -, -, -, ⟨hr, hj, -⟩, -⟩, -⟩ := hs
  obtain hr | hr := hr.lt_or_eq
  · obtain hj | hj := hj.lt_or_eq
    · exact .inl ⟨hr, hj, by simp only [nextCtl, hctl, if_pos hr, if_pos hj]⟩
    · exact .inr (.inl ⟨hr, hj, by simp only [nextCtl, hctl, if_pos hr, hj, lt_irrefl, if_false, if_true]⟩)
  · exact .inr (.inr ⟨hr, by simp only [nextCtl, hctl, hr, lt_irrefl, if_false, if_true]⟩)

theorem nextCtl_idle {s : State} (hctl : s.ctl = .idle) :
    nextCtl s = if s.running && s.wsStored then some .ctlBegin else none := by simp only [nextCtl, hctl]

theorem nextCtl_flushing {s : State} (hctl : s.ctl = .flushing) : nextCtl s = some .ctlToCool := by
  simp only [nextCtl, hctl]

theorem nextCtl_cooldown {s : State} (hctl : s.ctl = .cooldown) : nextCtl s = some .ctlCoolDone := by
  simp only [nextCtl, hctl]

/-- The transition that the table selects is answered. -/
theorem exec_nextCtl {s : State} (hs : s.Inv) {i : Instr} (h : nextCtl s = some i) : ∃ t, exec i s = .next t := by
  cases hctl : s.ctl with
  | idle =>
    rw [nextCtl_idle hctl] at h
    split at h
    next hdue =>
      cases h
      obtain ⟨hrun, hstored⟩ := Bool.and_eq_true_iff.mp hdue
      obtain ⟨hf, hstarted⟩ := running_iff.mp hrun
      obtain ⟨⟨⟨hrepeat, -⟩, -⟩, -⟩ := hs
      exact ⟨_, execCtlBegin_next.mpr ⟨hf, hstarted, hctl, hstored, Nat.one_le_iff_ne_zero.mp hrepeat, rfl⟩⟩
    next => cases h
  | transmitting =>
    obtain ⟨hf, hstarted⟩ := running_iff.mp (running_of_ctl hs (by rw [hctl]; decide))
    obtain ⟨hr, hj, hnext⟩ | ⟨hr, hj, hnext⟩ | ⟨hr, hnext⟩ := nextCtl_transmitting hs hctl
    all_goals rw [hnext] at h; cases h
    · by_cases hwait : s.fbwait < s.cfg.feedbackTicks ∨ s.fifoFull = true
      · exact ⟨_, execCtlSend_next.mpr ⟨hf, hstarted, hctl, hr, hj, .inl ⟨hwait, rfl⟩⟩⟩
      · rw [not_or, Nat.not_lt, Bool.not_eq_true] at hwait
        exact ⟨_, execCtlSend_next.mpr ⟨hf, hstarted, hctl, hr, hj, .inr ⟨hwait, rfl⟩⟩⟩
    · exact ⟨_, execCtlEndPass_next.mpr ⟨hf, hstarted, hctl, hr, hj, rfl⟩⟩
    · cases hfull : s.fifoFull with
      | true => exact ⟨_, execCtlToFlush_next.mpr ⟨hf, hstarted, hctl, hr, .inl ⟨hfull, rfl⟩⟩⟩
      | false => exact ⟨_, execCtlToFlush_next.mpr ⟨hf, hstarted, hctl, hr, .inr ⟨hfull, rfl⟩⟩⟩
  | flushing =>
    obtain ⟨hf, hstarted⟩ := running_iff.mp (running_of_ctl hs (by rw [hctl]; decide))
    rw [nextCtl_flushing hctl] at h
    cases h
    exact ⟨_, execCtlToCool_next.mpr ⟨hf, hstarted, hctl, rfl⟩⟩
  | cooldown =>
    obtain ⟨hf, hstarted⟩ := running_iff.mp (running_of_ctl hs (by rw [hctl]; decide))
    rw [nextCtl_cooldown hctl] at h
    cases h
    obtain hwait | hover := Nat.lt_or_ge s.cool s.cfg.cooldownTicks
    · exact ⟨_, execCtlCoolDone_next.mpr ⟨hf, hstarted, hctl, .inl ⟨hwait, rfl⟩⟩⟩
    · exact ⟨_, execCtlCoolDone_next.mpr ⟨hf, hstarted, hctl, .inr ⟨hover, rfl⟩⟩⟩

/-- The controller's six transitions. -/
def ctlTransitions : List Instr := [.ctlBegin, .ctlSend, .ctlEndPass, .ctlToFlush, .ctlToCool, .ctlCoolDone]

/-- A transition that is answered is the one that the table selects. -/
theorem nextCtl_of_exec {s t : State} {i : Instr} (hi : i ∈ ctlTransitions) (h : exec i s = .next t) :
    nextCtl s = some i := by
  simp only [ctlTransitions, List.mem_cons, List.not_mem_nil, or_false] at hi
  obtain rfl | rfl | rfl | rfl | rfl | rfl := hi
  · obtain ⟨hf, hs, hctl, hstored, -⟩ := execCtlBegin_next.mp h
    rw [nextCtl_idle hctl, running_iff.mpr ⟨hf, hs⟩, hstored]
    rfl
  · obtain ⟨-, -, hctl, hr, hj, -⟩ := execCtlSend_next.mp h
    simp only [nextCtl, hctl, if_pos hr, if_pos hj]
  · obtain ⟨-, -, hctl, hr, hj, -⟩ := execCtlEndPass_next.mp h
    simp only [nextCtl, hctl, if_pos hr, hj, lt_irrefl, if_false, if_true]
  · obtain ⟨-, -, hctl, hr, -⟩ := execCtlToFlush_next.mp h
    simp only [nextCtl, hctl, hr, lt_irrefl, if_false, if_true]
  · obtain ⟨-, -, hctl, -⟩ := execCtlToCool_next.mp h
    exact nextCtl_flushing hctl
  · obtain ⟨-, -, hctl, -⟩ := execCtlCoolDone_next.mp h
    exact nextCtl_cooldown hctl

theorem nextCtl_eq_none_iff {s : State} (hs : s.Inv) :
    nextCtl s = none ↔ s.ctl = .idle ∧ ¬(s.started = true ∧ s.wsStored = true) := by
  cases hctl : s.ctl with
  | idle =>
    have hrun : s.running = true ↔ s.started = true := ⟨fun h => (running_iff.mp h).2, running_of_inv hs⟩
    rw [nextCtl_idle hctl, ← hrun, ← Bool.and_eq_true]
    cases s.running && s.wsStored <;> simp
  | transmitting =>
    obtain ⟨-, -, hnext⟩ | ⟨-, -, hnext⟩ | ⟨-, hnext⟩ := nextCtl_transmitting hs hctl <;> simp [hnext]
  | flushing => simp [nextCtl_flushing hctl]
  | cooldown => simp [nextCtl_cooldown hctl]

/-- Settles O42. -/
theorem controllerTableIsExact : Obligations.ControllerTableIsExact :=
  fun _ hs => ⟨nextCtl_eq_none_iff hs, fun _ hi => ⟨exec_nextCtl hs, fun ⟨_, h⟩ => nextCtl_of_exec hi h⟩⟩

end Sys2Proof.Machine
end

section
/-! PROOFS. One step of the whole machine (00_scope.md R7, 30_encoding.md R112, 10_state.md R49): a trace line, and which of
them hold; boot (70_reset_and_hazards.md R262). -/

namespace Sys2Proof.Machine

/-! ### Holds -/

/-- Where the controller stands in its table. -/
def State.ctlPosition (s : State) : CtlState × Nat × Nat := (s.ctl, s.r, s.j)

/-- A transition that does not wait moves the controller. -/
theorem Effect.ctlPosition_ne {i : Instr} {s t : State} (h : Effect s i t) (hi : i ∈ ctlTransitions)
    (hgo : holds i s = false) : t.ctlPosition ≠ s.ctlPosition := by
  intro heq
  simp only [State.ctlPosition, Prod.mk.injEq] at heq
  obtain ⟨hctl, hr, hj⟩ := heq
  have hagent : sequencerOp i = false ∧ controllerOnly i = true := by
    simp only [ctlTransitions, List.mem_cons, List.not_mem_nil, or_false] at hi
    obtain rfl | rfl | rfl | rfl | rfl | rfl := hi <;> exact ⟨rfl, rfl⟩
  cases h with
  | held _ hold => exact absurd (hold.symm.trans hgo) (by decide)
  | begun _ hctl' | flushed _ hctl' | cooling _ hctl' | cooled _ hctl' => cases hctl.trans hctl'
  | sent => exact Nat.succ_ne_self _ hj
  | passEnded => exact Nat.succ_ne_self _ hr
  | ticked _ hseq => exact absurd (hagent.1.symm.trans hseq) (by decide)
  | pushed _ _ _ _ hother => exact absurd (hagent.2.symm.trans hother) (by decide)
  | called _ _ hcall => obtain rfl | rfl := hcall <;> simp [ctlTransitions] at hi
  | encoded | stored | failed | bound => simp [ctlTransitions] at hi

/-- An operation that leaves the state as it was has waited, unless it is an `ENCODE`, which may give one answer twice:
every other effect changes something. -/
theorem Effect.holds_of_unchanged {i : Instr} {s t : State} (h : Effect s i t) (ht : t = s)
    (hi : ∀ b w, i ≠ .encode b w) : holds i s = true := by
  by_cases hctl : i ∈ ctlTransitions
  · exact Bool.eq_true_of_not_eq_false fun hgo => h.ctlPosition_ne hctl hgo (congrArg State.ctlPosition ht)
  cases h with
  | held _ hold => exact hold
  | begun | sent | passEnded | flushed | cooling | cooled => simp [ctlTransitions] at hctl
  | @ticked _ n _ _ hn =>
    have hsame : s.ticks + n = s.ticks := (ticksN_ticks n s).symm.trans (congrArg State.ticks ht)
    have hpos : 1 ≤ n := by obtain rfl | ⟨rfl, -⟩ := hn <;> decide
    omega
  | encoded b w => exact absurd rfl (hi b w)
  | stored => exact absurd rfl (hi s.bits W)
  | failed f p hf =>
    have hsame : some (startCauses s.cfg f p) = s.fault := congrArg State.fault ht
    exact absurd (hsame.trans hf) (by simp)
  | bound _ _ _ hoff =>
    have hsame : true = s.started := congrArg State.started ht
    exact absurd (hsame.trans hoff) (by decide)
  | pushed w =>
    have hsame : s.fifo ++ [w] = s.fifo := congrArg State.fifo ht
    simp at hsame
  | called c =>
    have hsame : s.fb ++ [c] = s.fb := congrArg State.fb ht
    simp at hsame

theorem sendDue_iff {s : State} :
    s.sendDue = true ↔ s.ctl = .transmitting ∧ s.r < s.cfg.repeatCount ∧ s.j < s.ws.length := by
  rw [State.sendDue, Bool.and_eq_true, Bool.and_eq_true, decide_eq_true_iff, decide_eq_true_iff, decide_eq_true_iff, and_assoc]
  rfl

/-- The waits of R153, R202, R204 and R206, and no other. -/
theorem holds_iff {i : Instr} {s : State} :
    holds i s = true ↔ s.fault = none ∧ s.started = true ∧
      (((∃ w, i = .enq w) ∨ i = .flush) ∧ s.cfg.fifoDepth ≤ s.fifo.length ∨
        i = .ctlSend ∧ s.ctl = .transmitting ∧ s.r < s.cfg.repeatCount ∧ s.j < s.ws.length ∧
          (s.fbwait < s.cfg.feedbackTicks ∨ s.cfg.fifoDepth ≤ s.fifo.length) ∨
        i = .ctlToFlush ∧ s.ctl = .transmitting ∧ s.r = s.cfg.repeatCount ∧ s.cfg.fifoDepth ≤ s.fifo.length ∨
        i = .ctlCoolDone ∧ s.ctl = .cooldown ∧ s.cool < s.cfg.cooldownTicks) := by
  cases i with
  | enq | flush => simp [holds, running_iff, fifoFull_iff, and_assoc]
  | ctlSend => simp [holds, running_iff, fifoFull_iff, sendDue_iff, State.inFeedbackDelay, and_assoc]
  | ctlToFlush => simp [holds, running_iff, fifoFull_iff, State.flushDue, and_assoc]
  | ctlCoolDone => simp [holds, running_iff, State.inCooldownWait, and_assoc]
  | symOn | symOff | word | wordZero | encode | start | tickPull | tickShift | tickStarve | ctlBegin | ctlEndPass | ctlToCool
  | fbToggle | fbIdle => simp [holds]

theorem holds_iff_unchanged {i : Instr} {s : State} :
    holds i s = true ↔ (∀ b w, i ≠ .encode b w) ∧ exec i s = .next s := by
  refine ⟨fun h => ⟨?_, exec_of_holds h⟩, fun ⟨hi, h⟩ => (effect_of_exec h).holds_of_unchanged rfl hi⟩
  rintro b w rfl
  cases h

/-! ### A line of a trace -/

theorem step_line {s : State} {l : Line} {rest : List Line} {i : Instr} (ht : s.trace = l :: rest)
    (hl : decode l = some i) (hi : holds i s = false) : step s = exec i (withTrace rest s) := by
  simp only [step, ht, hl, hi]
  rfl

theorem step_held {s : State} {l : Line} {rest : List Line} {i : Instr} (ht : s.trace = l :: rest)
    (hl : decode l = some i) (hi : holds i s = true) : step s = exec (nextTick s) s := by
  simp only [step, ht, hl, hi]
  rfl

/-- Settles O52. -/
theorem stepRunsDecodedLine : Obligations.StepRunsDecodedLine :=
  ⟨fun _ _ _ _ ht hl => ⟨step_line ht hl, fun hi => ⟨exec_of_holds hi, step_held ht hl hi⟩⟩,
    fun _ _ => ⟨holds_iff_unchanged, holds_iff⟩⟩

theorem holds_withTrace (i : Instr) (t : List Line) (s : State) : holds i (withTrace t s) = holds i s := by
  cases i <;> rfl

/-- Settles O53: the placed line is the first one, and with it taken the trace is what it was. -/
theorem stepRunsFetchWord : Obligations.StepRunsFetchWord :=
  fun _ _ _ i hi hhold => step_line rfl hi ((holds_withTrace i _ _).trans hhold)

/-! ### A free-running step -/

theorem step_of_freeRunning_some {s : State} {i : Instr} (ht : s.trace = []) (hf : s.fault = none)
    (h : freeRunning s = some i) : step s = exec i (spendChoice s) := by
  simp only [step, ht, hf, h]

theorem step_of_freeRunning_none {s : State} (ht : s.trace = []) (hf : s.fault = none) (h : freeRunning s = none) :
    step s = .next (spendChoice s) := by
  simp only [step, ht, hf, h]

theorem freeRunning_seq {s : State} (hs : s.started = true) (hturn : Config.openSchedule s.sched = .seq) :
    freeRunning s = some (nextTick s) := by
  simp [freeRunning, hs, hturn]

theorem freeRunning_encode {s : State} (hturn : s.started = false ∨ Config.openSchedule s.sched = .ctl)
    (hopen : s.wsStored = false) : freeRunning s = some (.encode s.bits s.cfg.wordWidth) := by
  obtain h | h := hturn <;> simp [freeRunning, h, hopen]

theorem freeRunning_start {s : State} (hs : s.started = false) (hstored : s.wsStored = true) :
    freeRunning s = some (.start s.cfg.freqHz s.cfg.outPin) := by
  simp [freeRunning, hs, hstored]

theorem freeRunning_ctl {s : State} (hs : s.started = true) (hturn : Config.openSchedule s.sched = .ctl)
    (hstored : s.wsStored = true) : freeRunning s = (nextCtl s).filter fun i => !holds i s := by
  simp [freeRunning, hs, hturn, hstored]

/-- The controller's turn: its transition, or, while it must wait or has none, no more than the choice. -/
theorem step_ctl {s : State} (ht : s.trace = []) (hf : s.fault = none) (hs : s.started = true)
    (hturn : Config.openSchedule s.sched = .ctl) (hstored : s.wsStored = true) :
    (nextCtl s = none → step s = .next (spendChoice s)) ∧
      ∀ i, nextCtl s = some i → step s = if holds i s then .next (spendChoice s) else exec i (spendChoice s) := by
  have hfree := freeRunning_ctl hs hturn hstored
  refine ⟨fun h => step_of_freeRunning_none ht hf (by rw [hfree, h]; rfl), fun i h => ?_⟩
  cases hi : holds i s with
  | true => exact step_of_freeRunning_none ht hf (by simp [hfree, h, hi])
  | false => exact step_of_freeRunning_some ht hf (by simp [hfree, h, hi])

/-! ### Boot -/

/-- `ENCODE(BITS, 32)` is BOOT's own while nothing is stored. -/
theorem exec_bootEncode {s : State} (hvalid : s.cfg.Valid) (hf : s.fault = none) (hopen : s.wsStored = false) :
    exec (.encode s.bits s.cfg.wordWidth) s =
      .next (returnWords (packBits W s.bits) (storeStream (packWords s.bits) s)) := by
  obtain ⟨-, -, -, -, -, hwidth, -⟩ := hvalid
  rw [hwidth]
  exact (encodeCompletes s s.bits 0 hf).2.1 hopen

/-- The state after boot's first step. -/
def afterBootEncode (c : Config) (bits : List Bool) : State :=
  returnWords (packBits W bits) (storeStream (packWords bits) (spendChoice (State.powerOn c bits)))

theorem step_powerOn {c : Config} (hc : c.Valid) (bits : List Bool) :
    step (State.powerOn c bits) = .next (afterBootEncode c bits) := by
  rw [step_of_freeRunning_some rfl rfl (freeRunning_encode (.inl rfl) rfl)]
  exact exec_bootEncode (s := spendChoice (State.powerOn c bits)) hc rfl rfl

/-- Boot's second step is `START` with the configured rate and pin. -/
theorem step_afterBootEncode (c : Config) (bits : List Bool) :
    step (afterBootEncode c bits) = execStart c.freqHz c.outPin (spendChoice (afterBootEncode c bits)) :=
  step_of_freeRunning_some rfl rfl (freeRunning_start rfl rfl)

theorem valid_realizable {c : Config} (hc : c.Valid) : c.realizable c.freqHz.toNat = true := by
  obtain ⟨-, -, -, -, hrate, -⟩ := hc
  exact hrate

theorem packWords_streamLength {c : Config} (hc : c.Valid) {bits : List Bool} (h : bits.length = c.signalLength) :
    (packWords bits).length = c.streamLength := by
  obtain ⟨-, -, -, -, -, hwidth, -, hlen, -⟩ := hc
  rw [packWords_length, hlen, hwidth, h]
  rfl

/-- Settles O55. -/
theorem bootSequence : Obligations.BootSequence := by
  refine ⟨fun c bits i hencode hstart => exec_not_started rfl rfl hencode hstart, fun c bits hc hpin => ?_⟩
  have hrate := valid_realizable hc
  have hstart := (step_afterBootEncode c bits).trans (execStart_of_ok rfl rfl hpin hrate)
  exact ⟨_, _, step_powerOn hc bits, rfl, rfl, rfl, hstart, rfl, rfl, rfl, rfl, rfl,
    fun h => packWords_streamLength hc h, rfl, nextCtl_idle rfl⟩

/-- Settles O56: the rate of a legal configuration is realizable, so the bad pin is the only cause. -/
theorem bootStopsAtConfigError : Obligations.BootStopsAtConfigError := by
  intro c bits hc hpin
  have hrate := valid_realizable hc
  have hcauses : startCauses c c.freqHz c.outPin = ⟨true, false⟩ := by rw [startCauses, hpin, hrate]; rfl
  have hbad : ¬(c.pinOk c.outPin = true ∧ c.realizable c.freqHz.toNat = true) := fun h => by simp [hpin] at h
  have hfail := (step_afterBootEncode c bits).trans (execStart_of_bad rfl rfl hbad)
  refine ⟨_, _, step_powerOn hc bits, hfail, rfl, rfl, step_nil_of_fault ?_ rfl⟩
  exact congrArg some hcauses

end Sys2Proof.Machine
end

section
/-! PROOFS. The free-running machine (00_scope.md R13, 41_sequencer.md R150, 43_controller.md R207, R210, 60_exceptions.md
R249): both agents' turns come again and again, so ticks never end, boot ends, and every wait of the controller is over
after finitely many ticks. -/

namespace Sys2Proof.Machine

/-! ### What a free-running step keeps -/

/-- A started machine with no trace. -/
structure FreeRun (s : State) : Prop where
  inv : s.Inv
  trace : s.trace = []
  started : s.started = true

/-- `t` comes `n` free-running steps after `s`. -/
structure Later (n : Nat) (s t : State) : Prop where
  free : FreeRun t
  sched : t.sched = s.sched + n
  ticks : s.ticks ≤ t.ticks
  stored : s.wsStored = true → t.wsStored = true

theorem Later.trans {m n : Nat} {s t u : State} (h : Later m s t) (h' : Later n t u) : Later (m + n) s u := by
  have hsched : u.sched = s.sched + (m + n) := by rw [h'.sched, h.sched, Nat.add_assoc]
  exact ⟨h'.free, hsched, h.ticks.trans h'.ticks, h'.stored ∘ h.stored⟩

theorem FreeRun.fault {s : State} (h : FreeRun s) : s.fault = none :=
  (running_iff.mp (running_of_inv h.inv h.started)).1

/-- No operation goes back in time, stops the sequencer, or touches the trace and the schedule's counter. -/
theorem Effect.keeps_free {i : Instr} {s t : State} (h : Effect s i t) (hs : s.started = true) :
    t.started = true ∧ t.trace = s.trace ∧ t.sched = s.sched ∧ s.ticks ≤ t.ticks := by
  cases h with
  | @ticked _ n =>
    exact ⟨(ticksN_started n s).trans hs, ticksN_trace n s, ticksN_sched n s,
      (Nat.le_add_right ..).trans (ticksN_ticks n s).ge⟩
  | failed _ _ _ hoff => exact absurd (hs.symm.trans hoff) (by decide)
  | bound => exact ⟨rfl, rfl, rfl, le_rfl⟩
  | held | encoded | stored | pushed | begun | sent | passEnded | flushed | cooling | cooled | called =>
    exact ⟨hs, rfl, rfl, le_rfl⟩

theorem later_of_exec {i : Instr} {s t : State} (h : FreeRun s) (hexec : exec i (spendChoice s) = .next t) :
    Later 1 s t := by
  have heffect := effect_of_exec hexec
  obtain ⟨hstarted, htrace, hsched, hticks⟩ := heffect.keeps_free (s := spendChoice s) h.started
  exact ⟨⟨heffect.inv (inv_spendChoice h.inv), htrace.trans h.trace, hstarted⟩, hsched, hticks, heffect.wsStored⟩

theorem later_spendChoice {s : State} (h : FreeRun s) : Later 1 s (spendChoice s) :=
  ⟨⟨inv_spendChoice h.inv, h.trace, h.started⟩, rfl, le_rfl, id⟩

/-! ### What it does, by whose turn it is -/

theorem step_seq {s : State} (h : FreeRun s) (hturn : Config.openSchedule s.sched = .seq) :
    step s = .next (tick (spendChoice s)) := by
  rw [step_of_freeRunning_some h.trace h.fault (freeRunning_seq h.started hturn)]
  exact exec_nextTick (s := spendChoice s) h.fault h.started

/-- BOOT's turn stores the word stream. -/
theorem step_boot {s : State} (h : FreeRun s) (hturn : Config.openSchedule s.sched = .ctl) (hopen : s.wsStored = false) :
    ∃ t, step s = .next t ∧ Later 1 s t ∧ t.wsStored = true := by
  have hexec := exec_bootEncode (s := spendChoice s) h.inv.1 h.fault hopen
  refine ⟨_, ?_, later_of_exec h hexec, rfl⟩
  rw [step_of_freeRunning_some h.trace h.fault (freeRunning_encode (.inr hturn) hopen)]
  exact hexec

theorem nextCtl_mem {s : State} (hs : s.Inv) {i : Instr} (h : nextCtl s = some i) : i ∈ ctlTransitions := by
  cases hctl : s.ctl with
  | idle =>
    rw [nextCtl_idle hctl] at h
    split at h <;> cases h
    decide
  | transmitting =>
    obtain ⟨-, -, hnext⟩ | ⟨-, -, hnext⟩ | ⟨-, hnext⟩ := nextCtl_transmitting hs hctl
    all_goals rw [hnext] at h; cases h; decide
  | flushing => rw [nextCtl_flushing hctl] at h; cases h; decide
  | cooldown => rw [nextCtl_cooldown hctl] at h; cases h; decide

/-- The controller's turn: it has a transition, which waits or moves it. -/
theorem step_controller {s : State} (h : FreeRun s) (hturn : Config.openSchedule s.sched = .ctl)
    (hstored : s.wsStored = true) :
    ∃ i ∈ ctlTransitions, (holds i s = true → step s = .next (spendChoice s)) ∧
      (holds i s = false → ∃ t, step s = .next t ∧ Later 1 s t ∧ t.ctlPosition ≠ s.ctlPosition) := by
  obtain ⟨-, hstep⟩ := step_ctl h.trace h.fault h.started hturn hstored
  cases hnext : nextCtl s with
  | none => exact absurd ⟨h.started, hstored⟩ ((nextCtl_eq_none_iff h.inv).mp hnext).2
  | some i =>
    have hi := nextCtl_mem h.inv hnext
    refine ⟨i, hi, fun hold => ?_, fun hgo => ?_⟩
    · rw [hstep i hnext, hold]
      rfl
    · obtain ⟨t, ht⟩ := exec_nextCtl (s := spendChoice s) (inv_spendChoice h.inv) hnext
      have hgo' : holds i (spendChoice s) = false := Eq.trans (by cases i <;> rfl) hgo
      refine ⟨t, ?_, later_of_exec h ht, (effect_of_exec ht).ctlPosition_ne hi hgo'⟩
      rw [hstep i hnext, hgo]
      exact ht

/-- The machine never stops. -/
theorem step_free {s : State} (h : FreeRun s) : ∃ t, step s = .next t ∧ Later 1 s t := by
  cases hturn : Config.openSchedule s.sched with
  | seq =>
    have hexec := exec_nextTick (s := spendChoice s) h.fault h.started
    exact ⟨_, step_seq h hturn, later_of_exec h hexec⟩
  | ctl =>
    cases hstored : s.wsStored with
    | false =>
      obtain ⟨t, ht, hlater, -⟩ := step_boot h hturn hstored
      exact ⟨t, ht, hlater⟩
    | true =>
      obtain ⟨i, -, hwait, hmove⟩ := step_controller h hturn hstored
      cases hi : holds i s with
      | true => exact ⟨_, hwait hi, later_spendChoice h⟩
      | false =>
        obtain ⟨t, ht, hlater, -⟩ := hmove hi
        exact ⟨t, ht, hlater⟩

/-! ### Runs -/

theorem runSteps_succ {n : Nat} {s t u : State} (h : runSteps n s = .next t) (hstep : step t = .next u) :
    runSteps (n + 1) s = .next u := by
  rw [runSteps_add n 1 s t h]
  simp only [runSteps, hstep]

theorem runSteps_free : ∀ (n : Nat) {s : State}, FreeRun s → ∃ t, runSteps n s = .next t ∧ Later n s t
  | 0, s, h => ⟨s, rfl, h, rfl, le_rfl, id⟩
  | n + 1, s, h => by
    obtain ⟨t, ht, hlater⟩ := runSteps_free n h
    obtain ⟨u, hu, hlater'⟩ := step_free hlater.free
    exact ⟨u, runSteps_succ ht hu, hlater.trans hlater'⟩

/-- Each agent's turn comes. -/
theorem runSteps_turn (a : Agent) {s : State} (h : FreeRun s) :
    ∃ n t, runSteps n s = .next t ∧ Later n s t ∧ Config.openSchedule t.sched = a := by
  obtain ⟨m, hm, hturn⟩ : ∃ m, s.sched ≤ m ∧ Config.openSchedule m = a := by
    cases a with
    | seq => exact openSchedule_seq_after s.sched
    | ctl => exact openSchedule_ctl_after s.sched
  obtain ⟨t, ht, hlater⟩ := runSteps_free (m - s.sched) h
  refine ⟨_, t, ht, hlater, ?_⟩
  rw [hlater.sched, Nat.add_sub_cancel' hm, hturn]

/-- Ticks never end (R150). -/
theorem runSteps_ticks {s : State} (h : FreeRun s) :
    ∀ k, ∃ n t, runSteps n s = .next t ∧ Later n s t ∧ s.ticks + k ≤ t.ticks
  | 0 => ⟨0, s, rfl, ⟨h, rfl, le_rfl, id⟩, le_rfl⟩
  | k + 1 => by
    obtain ⟨n, t, ht, hlater, hk⟩ := runSteps_ticks h k
    obtain ⟨m, u, hu, hlater', hturn⟩ := runSteps_turn .seq hlater.free
    have hexec := exec_nextTick (s := spendChoice u) hlater'.free.fault hlater'.free.started
    have hrun : runSteps (n + m) s = .next u := (runSteps_add n m s t ht).trans hu
    refine ⟨_, _, runSteps_succ hrun (step_seq hlater'.free hturn),
      (hlater.trans hlater').trans (later_of_exec hlater'.free hexec), ?_⟩
    have hticks := hlater'.ticks
    rw [tick_ticks, spendChoice_ticks]
    omega

theorem runSteps_stores {s : State} (h : FreeRun s) : ∃ n t, runSteps n s = .next t ∧ t.wsStored = true := by
  obtain ⟨n, t, ht, hlater, hturn⟩ := runSteps_turn .ctl h
  cases hstored : t.wsStored with
  | true => exact ⟨n, t, ht, hstored⟩
  | false =>
    obtain ⟨u, hu, -, hstored'⟩ := step_boot hlater.free hturn hstored
    exact ⟨n + 1, u, runSteps_succ ht hu, hstored'⟩

/-! ### The controller's waits end -/

theorem tick_fifo_length_le (s : State) : (tick s).fifo.length ≤ s.fifo.length := by
  obtain ⟨w, rest, -, hq, ht⟩ | ⟨-, ht⟩ | ⟨-, -, ht⟩ := tick_cases s
  · rw [ht, hq]
    exact Nat.le_succ _
  · rw [ht]
    exact le_rfl
  · rw [ht]
    exact le_rfl

/-- After the ticks of one word the FIFO has room, as long as nothing is pushed. -/
theorem ticksN_room {s : State} (hs : s.Inv) {m : Nat} (hm : W ≤ m) :
    (ticksN m s).fifo.length < s.cfg.fifoDepth := by
  obtain ⟨⟨-, -, -, hdepth, -⟩, ⟨hfifo, ⟨⟨hlo, hhi⟩, -⟩, -⟩, -⟩ := hs
  obtain ⟨k, rfl⟩ : ∃ k, m = W - s.cnt + 1 + k := ⟨m - (W - s.cnt + 1), by omega⟩
  rw [ticksN_add]
  refine ticksN_keeps (P := fun u => u.fifo.length < s.cfg.fifoDepth) (fun u hu => (tick_fifo_length_le u).trans_lt hu) k _ ?_
  rw [ticksN_pull s hhi, List.length_tail]
  exact Nat.lt_of_le_of_lt (Nat.sub_le_sub_right hfifo 1) (Nat.sub_lt hdepth Nat.one_pos)

/-- After this many ticks no transition of the controller waits. -/
theorem not_holds_after {s : State} (hs : s.Inv) {m : Nat}
    (hm : s.cfg.feedbackTicks + s.cfg.cooldownTicks + W ≤ m) {i : Instr} (hi : i ∈ ctlTransitions) :
    holds i (ticksN m s) = false := by
  rw [← Bool.not_eq_true, holds_iff]
  rintro ⟨-, -, hwait⟩
  have hroom := ticksN_room hs (m := m) (by omega)
  rw [ticksN_cfg, ticksN_ctl, ticksN_cool, ticksN_fbwait] at hwait
  obtain ⟨rfl | ⟨w, rfl⟩, -⟩ | ⟨-, hctl', -, -, hfb | hfull⟩ | ⟨-, -, -, hfull⟩ | ⟨-, hctl', hcool⟩ :=
    hwait.imp_left fun h => And.imp_left Or.symm h
  · simp [ctlTransitions] at hi
  · simp [ctlTransitions] at hi
  · rw [if_pos hctl'] at hfb
    omega
  · omega
  · omega
  · rw [if_pos hctl'] at hcool
    omega

/-- `s` after `m` ticks, the schedule's counter at `c`. -/
def waited (m c : Nat) (s : State) : State := { ticksN m s with sched := c }

theorem tick_sched_comm (c : Nat) (s : State) : tick { s with sched := c } = { tick s with sched := c } := by
  obtain ⟨w, rest, hc, hq, ht⟩ | ⟨hc, ht⟩ | ⟨hc, hq, ht⟩ := tick_cases s
  · rw [ht, tick_pull (s := { s with sched := c }) hc hq]
    rfl
  · rw [ht, tick_shift (s := { s with sched := c }) hc]
    rfl
  · rw [ht, tick_starve (s := { s with sched := c }) hc hq]
    rfl

theorem tick_waited (m c : Nat) (s : State) : tick (spendChoice (waited m c s)) = waited (m + 1) (c + 1) s :=
  calc tick (spendChoice (waited m c s))
      = { tick (ticksN m s) with sched := c + 1 } := tick_sched_comm (c + 1) (ticksN m s)
    _ = waited (m + 1) (c + 1) s := by rw [waited, ticksN_succ]

theorem waited_ticks (m c : Nat) (s : State) : (waited m c s).ticks = s.ticks + m := ticksN_ticks m s

theorem holds_waited (i : Instr) (m c : Nat) (s : State) : holds i (waited m c s) = holds i (ticksN m s) := by
  cases i <;> rfl

/-- As long as the controller stays where it is, the run is made of ticks and passed turns. -/
theorem runSteps_waited {s : State} (h : FreeRun s) (hstored : s.wsStored = true)
    (hstay : ∀ n t, runSteps n s = .next t → t.ctlPosition = s.ctlPosition) :
    ∀ n, ∃ m, runSteps n s = .next (waited m (s.sched + n) s)
  | 0 => ⟨0, rfl⟩
  | n + 1 => by
    obtain ⟨m, hm⟩ := runSteps_waited h hstored hstay n
    obtain ⟨u, hu, hlater⟩ := runSteps_free n h
    obtain rfl : waited m (s.sched + n) s = u := next_eq.mp (hu.symm.trans hm)
    cases hturn : Config.openSchedule (waited m (s.sched + n) s).sched with
    | seq => exact ⟨m + 1, runSteps_succ hm ((step_seq hlater.free hturn).trans (congrArg _ (tick_waited ..)))⟩
    | ctl =>
      obtain ⟨i, -, hwait, hmove⟩ := step_controller hlater.free hturn (hlater.stored hstored)
      cases hi : holds i (waited m (s.sched + n) s) with
      | true => exact ⟨m, runSteps_succ hm (hwait hi)⟩
      | false =>
        obtain ⟨v, hv, -, hne⟩ := hmove hi
        exact absurd ((hstay _ v (runSteps_succ hm hv)).trans (hstay n _ hm).symm) hne

/-- The controller stays nowhere for ever (R207, R210). -/
theorem runSteps_moves {s : State} (h : FreeRun s) (hstored : s.wsStored = true) :
    ∃ n t, runSteps n s = .next t ∧ t.ctlPosition ≠ s.ctlPosition := by
  by_contra hno
  have hstay : ∀ n t, runSteps n s = .next t → t.ctlPosition = s.ctlPosition :=
    fun n t ht => by_contra fun hne => hno ⟨n, t, ht, hne⟩
  obtain ⟨n, t, ht, hlater, hticks⟩ := runSteps_ticks h (s.cfg.feedbackTicks + s.cfg.cooldownTicks + W)
  obtain ⟨n', u, hu, hlater', hturn⟩ := runSteps_turn .ctl hlater.free
  have hrun : runSteps (n + n') s = .next u := (runSteps_add n n' s t ht).trans hu
  obtain ⟨m, hm⟩ := runSteps_waited h hstored hstay (n + n')
  obtain rfl : waited m (s.sched + (n + n')) s = u := next_eq.mp (hrun.symm.trans hm)
  have hover : s.cfg.feedbackTicks + s.cfg.cooldownTicks + W ≤ m := by
    have hle := hticks.trans hlater'.ticks
    rw [waited_ticks] at hle
    exact Nat.le_of_add_le_add_left hle
  obtain ⟨i, hi, -, hmove⟩ := step_controller hlater'.free hturn ((hlater.trans hlater').stored hstored)
  obtain ⟨v, hv, -, hne⟩ := hmove ((holds_waited i m _ s).trans (not_holds_after h.inv hover hi))
  exact hne ((hstay _ v (runSteps_succ hrun hv)).trans (hstay _ _ hrun).symm)

/-- Settles O54. -/
theorem freeRunningStep : Obligations.FreeRunningStep := by
  refine ⟨fun s ht hf => ⟨fun hs hopen => ?_, fun hs hstored => ?_, fun hs hopen => ?_, fun hs hstored => ?_⟩,
    fun s hinv ht hs => ?_⟩
  · exact step_of_freeRunning_some ht hf (freeRunning_encode (.inl hs) hopen)
  · exact step_of_freeRunning_some ht hf (freeRunning_start hs hstored)
  · cases hturn : Config.openSchedule s.sched with
    | seq => exact step_of_freeRunning_some ht hf (freeRunning_seq hs hturn)
    | ctl => exact step_of_freeRunning_some ht hf (freeRunning_encode (.inr hturn) hopen)
  · cases hturn : Config.openSchedule s.sched with
    | seq => exact step_of_freeRunning_some ht hf (freeRunning_seq hs hturn)
    | ctl =>
      obtain ⟨hidle, hnext⟩ := step_ctl ht hf hs hturn hstored
      cases h : nextCtl s with
      | none => exact hidle h
      | some i => exact hnext i h
  · have hfree : FreeRun s := ⟨hinv, ht, hs⟩
    refine ⟨fun n => ?_, fun k => ?_, runSteps_stores hfree, runSteps_moves hfree⟩
    · obtain ⟨t, hrun, -⟩ := runSteps_free n hfree
      exact ⟨t, hrun⟩
    · obtain ⟨n, t, hrun, -, hticks⟩ := runSteps_ticks hfree k
      exact ⟨n, t, hrun, hticks⟩

end Sys2Proof.Machine
end
